-- ==== Sys2Proof/Word.lean ====
section
/-! DEFINITION. The word types of the block (spec/00_scope.md R7, R10). -/

namespace Sys2Proof

/-- `u8`: a payload byte (R10). -/
abbrev Byte := BitVec 8

/-- `u32`: a header field (R7 `HDR_FIELD_BITS`). -/
abbrev Word32 := BitVec 32

/-- `u64`, and the bit pattern of an `i64` in two's complement (R10). -/
abbrev Word64 := BitVec 64

/-- A beat: "an unsigned 64-bit word" (R7 `BEAT_BITS`). -/
abbrev Beat := BitVec 64

/-- An `f64` as its IEEE 754 binary64 bit pattern (R10). -/
abbrev F64 := BitVec 64

end Sys2Proof
end

