-- ==== Sys2Proof/Syntax.lean ====
section
/-! DEFINITION. The operations of the block as syntax: one constructor per row of spec/opcode_table.json
(spec/30_encoding.md R80), with the operands of the operation's rule. -/

namespace Sys2Proof

/-- The seven fields of a PipelineHeader, in the order of R26 and R27. -/
inductive HField where
  | beatCount | compressedFlag | encryptedFlag | eccFlag
  | compressedPadBytes | encryptedPadBytes | eccPadBytes
deriving DecidableEq, Repr

/-- Every field, index 0 to 6 (R26). -/
def HField.all : List HField :=
  [.beatCount, .compressedFlag, .encryptedFlag, .eccFlag,
   .compressedPadBytes, .encryptedPadBytes, .eccPadBytes]

/-- A PipelineHeader value: seven `u32` (spec/00_scope.md R13). -/
structure Header where
  beatCount : Word32
  compressedFlag : Word32
  encryptedFlag : Word32
  eccFlag : Word32
  compressedPadBytes : Word32
  encryptedPadBytes : Word32
  eccPadBytes : Word32
deriving DecidableEq, Repr, Inhabited

/-- One lane given to PACK: `(value, W, F)` (spec/40_fixedpoint.md R116). -/
structure Lane where
  value : F64
  width : Nat
  frac : Nat
deriving DecidableEq, Repr

/-- A call of one operation with its operands. -/
inductive Instr where
  /-- ENCODE (R110). -/
  | encode (value : F64) (width frac : Nat)
  /-- DECODE (R113). -/
  | decode (raw : Word64) (width : Nat)
  /-- PACK (R116). -/
  | pack (lanes : List Lane) (flag : Bool)
  /-- UNPACK (R119). -/
  | unpack (raw : Word64) (widths : List Nat)
  /-- FLAGOF (R121). -/
  | flagOf (raw : Word64) (widths : List Nat)
  /-- TOBEATS (R140). -/
  | toBeats (payload : List Byte)
  /-- SER.PUSH (R142). -/
  | serPush (byte : Byte)
  /-- FROMBEATS (R145). -/
  | fromBeats (beats : List Beat)
  /-- DES.POP (R146). -/
  | desPop
  /-- REG.WR32 (R170). -/
  | regWr32 (addr : Nat) (value : Word32)
  /-- REG.WR64 (R170). -/
  | regWr64 (addr : Nat) (value : Word64)
  /-- REG.RD32 (R171). -/
  | regRd32 (addr : Nat)
  /-- REG.RD64 (R171). -/
  | regRd64 (addr : Nat)
  /-- HDR.WRITE (R172). -/
  | hdrWrite (header : Header)
  /-- HDR.READ (R173). -/
  | hdrRead
  /-- WQ.PUSH (R174). -/
  | wqPush (beat : Beat)
  /-- RQ.POP (R175). -/
  | rqPop
  /-- EN.START (R176). -/
  | enStart
  /-- POLL.READ (R177). -/
  | pollRead
  /-- SESSION.RUN (R190). -/
  | sessionRun (txHeader : Header) (payload : List Byte)
  /-- VALIDATE (R197). -/
  | validate (rxPayload expected : List Byte)
deriving DecidableEq, Repr

/-- A call the host is to make: the operation, and the block whose address parameters it is made with, named by its
`HDR_BASE` ("each session takes its own set of address parameters", spec/43_transfer_session.md R198;
spec/60_exceptions.md R220). -/
structure Call where
  block : Nat
  op : Instr
deriving DecidableEq, Repr

end Sys2Proof
end

