-- ==== Sys2Proof/WellFormed.lean ====
section
/-! DEFINITION. Which calls are well formed: every operand lies in its type. A width out of range is no matter
of form: the operation itself refuses it by name (spec/60_exceptions.md R213). -/

namespace Sys2Proof

/-- `F` is a `u8`: `0 <= F <= 255` (spec/00_scope.md R8, spec/40_fixedpoint.md R110). -/
def fracInRange (frac : Nat) : Bool := decide (frac ≤ 255)

/-- The form check of a call. Only fractional bits have a type narrower than the model's. -/
def Instr.wellFormed : Instr → Bool
  | .encode _ _ frac => fracInRange frac
  | .decode _ _ => true
  | .pack lanes _ => lanes.all fun l => fracInRange l.frac
  | .unpack _ _ => true
  | .flagOf _ _ => true
  | .toBeats _ => true
  | .serPush _ => true
  | .fromBeats _ => true
  | .desPop => true
  | .regWr32 _ _ => true
  | .regWr64 _ _ => true
  | .regRd32 _ => true
  | .regRd64 _ => true
  | .hdrWrite _ => true
  | .hdrRead => true
  | .wqPush _ => true
  | .rqPop => true
  | .enStart => true
  | .pollRead => true
  | .sessionRun _ _ => true
  | .validate _ _ => true

end Sys2Proof
end

