-- ==== Sys2Proof/Decode.lean ====
section
/-! DEFINITION. The record form of a call: decoder and encoder. DESIGN CHOICE (notes/assumptions/2.md; safe): the
spec gives an operation no word (spec/30_encoding.md R81), "identified by its mnemonic alone". A record is the
model's own way to write a call as bytes: the row number of the operation in spec/opcode_table.json, from 1,
then its operands in the order of R80. Integers of fixed width are little-endian, natural numbers come in groups
of 7 bits (low group first, bit 7 set on all but the last), a sequence is its length and its elements. The data
words of the spec are not read here: their fields are in Machine/Operands.lean. -/

namespace Sys2Proof

/-- Why a record is no call. -/
inductive DecodeError where
  /-- The bytes end before the record does. -/
  | truncated
  /-- No operation has this row number. -/
  | unknownOperation (row : Nat)
  /-- A flag byte that is neither 0 nor 1. -/
  | badFlag (byte : Byte)
deriving DecidableEq, Repr

/-- A reader takes a value off the front of the bytes. -/
abbrev Reader (α : Type) := List Byte → Except DecodeError (α × List Byte)

/-- Run `p`, then `f` on what it read. -/
def Reader.andThen {α β : Type} (p : Reader α) (f : α → Reader β) : Reader β := fun bs =>
  match p bs with
  | .ok (a, rest) => f a rest
  | .error e => .error e

/-- Read nothing. -/
def Reader.give {α : Type} (a : α) : Reader α := fun bs => .ok (a, bs)

/-- A little-endian number of `k` bytes. -/
def readLE : Nat → Reader Nat
  | 0, bs => .ok (0, bs)
  | _ + 1, [] => .error .truncated
  | k + 1, b :: bs =>
    match readLE k bs with
    | .ok (n, rest) => .ok (b.toNat + 256 * n, rest)
    | .error e => .error e

/-- A natural number of any size, in groups of 7 bits. -/
def readNat : Reader Nat
  | [] => .error .truncated
  | b :: bs =>
    if b.toNat < 128 then .ok (b.toNat, bs)
    else
      match readNat bs with
      | .ok (n, rest) => .ok (b.toNat - 128 + 128 * n, rest)
      | .error e => .error e

/-- `n` values one after another. -/
def readMany {α : Type} (p : Reader α) : Nat → Reader (List α)
  | 0 => Reader.give []
  | n + 1 => p.andThen fun a => (readMany p n).andThen fun as => Reader.give (a :: as)

/-- A sequence: its length, then its elements. -/
def readList {α : Type} (p : Reader α) : Reader (List α) := readNat.andThen (readMany p)

/-- A `u8`. -/
def readByte : Reader Byte
  | [] => .error .truncated
  | b :: bs => .ok (b, bs)

/-- A `u32`. -/
def readU32 : Reader Word32 := (readLE 4).andThen fun n => Reader.give (BitVec.ofNat 32 n)

/-- A `u64`, or an `f64`'s bits. -/
def readU64 : Reader Word64 := (readLE 8).andThen fun n => Reader.give (BitVec.ofNat 64 n)

/-- A `bool`. -/
def readFlag : Reader Bool
  | [] => .error .truncated
  | b :: bs => if b = 0 then .ok (false, bs) else if b = 1 then .ok (true, bs) else .error (.badFlag b)

/-- A lane: value, width, fractional bits (one byte, a `u8`). -/
def readLane : Reader Lane :=
  readU64.andThen fun v => readNat.andThen fun w => (readLE 1).andThen fun f => Reader.give ⟨v, w, f⟩

/-- A header: seven `u32` in field order. -/
def readHeader : Reader Header :=
  readU32.andThen fun a => readU32.andThen fun b => readU32.andThen fun c => readU32.andThen fun d =>
  readU32.andThen fun e => readU32.andThen fun f => readU32.andThen fun g =>
    Reader.give ⟨a, b, c, d, e, f, g⟩

/-- The operands of the operation in row `row`. -/
def readOperands (row : Nat) : Reader Instr :=
  match row with
  | 1 => readU64.andThen fun v => readNat.andThen fun w => (readLE 1).andThen fun f =>
      Reader.give (.encode v w f)
  | 2 => readU64.andThen fun r => readNat.andThen fun w => Reader.give (.decode r w)
  | 3 => (readList readLane).andThen fun ls => readFlag.andThen fun f => Reader.give (.pack ls f)
  | 4 => readU64.andThen fun r => (readList readNat).andThen fun ws => Reader.give (.unpack r ws)
  | 5 => readU64.andThen fun r => (readList readNat).andThen fun ws => Reader.give (.flagOf r ws)
  | 6 => (readList readByte).andThen fun p => Reader.give (.toBeats p)
  | 7 => readByte.andThen fun b => Reader.give (.serPush b)
  | 8 => (readList readU64).andThen fun bs => Reader.give (.fromBeats bs)
  | 9 => Reader.give .desPop
  | 10 => readNat.andThen fun a => readU32.andThen fun v => Reader.give (.regWr32 a v)
  | 11 => readNat.andThen fun a => readU64.andThen fun v => Reader.give (.regWr64 a v)
  | 12 => readNat.andThen fun a => Reader.give (.regRd32 a)
  | 13 => readNat.andThen fun a => Reader.give (.regRd64 a)
  | 14 => readHeader.andThen fun h => Reader.give (.hdrWrite h)
  | 15 => Reader.give .hdrRead
  | 16 => readU64.andThen fun b => Reader.give (.wqPush b)
  | 17 => Reader.give .rqPop
  | 18 => Reader.give .enStart
  | 19 => Reader.give .pollRead
  | 20 => readHeader.andThen fun h => (readList readByte).andThen fun p => Reader.give (.sessionRun h p)
  | 21 => (readList readByte).andThen fun a => (readList readByte).andThen fun b =>
      Reader.give (.validate a b)
  | n => fun _ => .error (.unknownOperation n)

/-- The call at the front of the bytes, and the bytes after it. -/
def decodeCall : Reader Instr := readByte.andThen fun b => readOperands b.toNat

/-- `n` as `k` bytes, little-endian. -/
def writeLE : Nat → Nat → List Byte
  | 0, _ => []
  | k + 1, n => BitVec.ofNat 8 n :: writeLE k (n / 256)

/-- `n` in groups of 7 bits; `fuel` bounds the groups after the first, and `n` of them are enough. -/
def writeNatFuel : Nat → Nat → List Byte
  | 0, n => [BitVec.ofNat 8 n]
  | fuel + 1, n =>
    if n < 128 then [BitVec.ofNat 8 n]
    else BitVec.ofNat 8 (n % 128 + 128) :: writeNatFuel fuel (n / 128)

/-- `n` in groups of 7 bits. -/
def writeNat (n : Nat) : List Byte := writeNatFuel n n

/-- A sequence: its length, then its elements. -/
def writeList {α : Type} (p : α → List Byte) (as : List α) : List Byte :=
  writeNat as.length ++ as.flatMap p

/-- A `u8`. -/
def writeByte (b : Byte) : List Byte := [b]

/-- A `u32`. -/
def writeU32 (v : Word32) : List Byte := writeLE 4 v.toNat

/-- A `u64`. -/
def writeU64 (v : Word64) : List Byte := writeLE 8 v.toNat

/-- A `bool`. -/
def writeFlag (f : Bool) : List Byte := [if f then 1 else 0]

/-- A lane. -/
def writeLane (l : Lane) : List Byte := writeU64 l.value ++ writeNat l.width ++ writeLE 1 l.frac

/-- A header. -/
def writeHeader (h : Header) : List Byte :=
  writeU32 h.beatCount ++ writeU32 h.compressedFlag ++ writeU32 h.encryptedFlag ++ writeU32 h.eccFlag ++
  writeU32 h.compressedPadBytes ++ writeU32 h.encryptedPadBytes ++ writeU32 h.eccPadBytes

/-- The row of spec/opcode_table.json an operation has, counted from 1. -/
def Instr.row : Instr → Nat
  | .encode _ _ _ => 1
  | .decode _ _ => 2
  | .pack _ _ => 3
  | .unpack _ _ => 4
  | .flagOf _ _ => 5
  | .toBeats _ => 6
  | .serPush _ => 7
  | .fromBeats _ => 8
  | .desPop => 9
  | .regWr32 _ _ => 10
  | .regWr64 _ _ => 11
  | .regRd32 _ => 12
  | .regRd64 _ => 13
  | .hdrWrite _ => 14
  | .hdrRead => 15
  | .wqPush _ => 16
  | .rqPop => 17
  | .enStart => 18
  | .pollRead => 19
  | .sessionRun _ _ => 20
  | .validate _ _ => 21

/-- The operand bytes of a call. -/
def writeOperands : Instr → List Byte
  | .encode v w f => writeU64 v ++ writeNat w ++ writeLE 1 f
  | .decode r w => writeU64 r ++ writeNat w
  | .pack ls f => writeList writeLane ls ++ writeFlag f
  | .unpack r ws => writeU64 r ++ writeList writeNat ws
  | .flagOf r ws => writeU64 r ++ writeList writeNat ws
  | .toBeats p => writeList writeByte p
  | .serPush b => writeByte b
  | .fromBeats bs => writeList writeU64 bs
  | .desPop => []
  | .regWr32 a v => writeNat a ++ writeU32 v
  | .regWr64 a v => writeNat a ++ writeU64 v
  | .regRd32 a => writeNat a
  | .regRd64 a => writeNat a
  | .hdrWrite h => writeHeader h
  | .hdrRead => []
  | .wqPush b => writeU64 b
  | .rqPop => []
  | .enStart => []
  | .pollRead => []
  | .sessionRun h p => writeHeader h ++ writeList writeByte p
  | .validate a b => writeList writeByte a ++ writeList writeByte b

/-- The record of a call. -/
def encodeCall (i : Instr) : List Byte := BitVec.ofNat 8 i.row :: writeOperands i

/-- The call in a record whose first `nbits` bits are those of `w` (bit 0 is the lowest bit of the first byte),
all later bytes 0. Zero bytes read as the number 0 and as the empty sequence, so 40 of them reach past the
operands of every row. -/
def decodeTableWord (nbits w : Nat) : Option Instr :=
  match decodeCall (writeLE (nbits / 8) w ++ List.replicate 40 0) with
  | .ok (i, _) => some i
  | .error _ => none

end Sys2Proof
end

