-- ==== Sys2Proof/Config.lean ====
section
/-! DEFINITION. What the configuration fixes (spec/00_scope.md R8, spec/10_state.md R23) and the free values the
spec leaves open (R11 `draw`). LAYOUT is "supplied per use" (R8): it is the operand of PACK, UNPACK and FLAGOF. -/

namespace Sys2Proof.Config

/-- The two byte orders inside a beat (spec/20_memory.md R50, R51). -/
inductive ByteOrder where
  | lsbFirst | msbFirst
deriving DecidableEq, Repr

/-- `CTRL_WIDTH`, and the two widths of a transport access (R8, R86). -/
inductive Width where
  | w32 | w64
deriving DecidableEq, Repr

/-- `POLL_ADDR`: `RCOUNT_ADDR` or `HDR_BASE + 0x24` (R8, spec/42_header_regs.md R177). -/
inductive PollAt where
  | rcount | hdrOut0
deriving DecidableEq, Repr

/-- What stands behind the registers. The last three are test configurations, no hardware. -/
inductive Transport where
  /-- The real pipeline: opaque (spec/10_state.md R34). -/
  | hardware
  /-- `MIRROR_MOCK`: `HDR_OUT[k] = HDR_IN[k]` at all times (spec/42_header_regs.md R180). -/
  | mirror
  /-- `MIRROR_MOCK` with loopback (spec/92_eei_decisions.md D32): `RQ` receives what `WQ` is given and the
  poll register holds the number of beats pushed once enabled; of which transfer, notes/assumptions/33.md. -/
  | loopback
  /-- The mock of spec/95_test_vectors.md P5: the poll register always reads 0, nothing else moves. -/
  | silent
deriving DecidableEq, Repr

/-- The open parameters of R8. -/
structure Params where
  serOrder : ByteOrder
  desOrder : ByteOrder
  hdrBase : Nat
  wqAddr : Nat
  wcountAddr : Nat
  rqAddr : Nat
  rcountAddr : Nat
  enableAddr : Nat
  ctrlWidth : Width
  pollAt : PollAt
  /-- `QUEUE_DEPTH`; `none` is unbounded. -/
  queueDepth : Option Nat
  /-- `POLL_LIMIT`; `none` spins for ever. -/
  pollLimit : Option Nat
  /-- `BYTES_PER_BEAT`: any value but 8 is refused (spec/41_beatframer.md R141). -/
  bytesPerBeat : Nat
  transport : Transport
deriving DecidableEq, Repr

/-- The defaults of R8; the addresses and `POLL_ADDR`, which have none, are the model's (DESIGN CHOICE,
notes/assumptions/3.md; safe, since statements quantify over every configuration). -/
def Params.default : Params where
  serOrder := .lsbFirst
  desOrder := .lsbFirst
  hdrBase := 0x1000
  wqAddr := 0x2000
  wcountAddr := 0x2008
  rqAddr := 0x2010
  rcountAddr := 0x2018
  enableAddr := 0x2020
  ctrlWidth := .w32
  pollAt := .rcount
  queueDepth := none
  pollLimit := none
  bytesPerBeat := 8
  transport := .hardware

/-- What the pipeline does between two accesses of the host: any values for the registers it may write, any
number of beats taken from `WQ`, any beats given to `RQ` (R34). -/
structure PipelineMove where
  pipe : Nat
  takes : Nat
  gives : List Beat
  hdrOut : Header
  enable : Word64
  wcount : Word64
  rcount : Word64
deriving Inhabited

/-- FREE VALUE (R34, D18): the pipeline of the block at `base` as an arbitrary machine over its own state, a number,
and what it can see: whether it runs, `HDR_IN`, `WQ`, `RQ`. Nothing is known of it (notes/assumptions/4.md). -/
opaque pipelineMove (base pipe : Nat) (processing : Bool) (hdrIn : Header) (wq rq : List Beat) : PipelineMove

/-- FREE VALUE (spec/40_fixedpoint.md R111, D3): the word ENCODE draws outside its domain, before the mask to
`W` bits; a function of the operands, as R21 says of every codec (notes/assumptions/6.md). -/
opaque encodeDraw (value : F64) (width frac : Nat) : Word64

/-- FREE VALUE (spec/42_header_regs.md R175, D19): the beat a pop of an empty `RQ` returns
(notes/assumptions/7.md). -/
opaque emptyPop (draws pipe : Nat) : Beat

/-- FREE VALUE (spec/41_beatframer.md R146): the beat in `DES_SHR` when a DES.POP begins a beat that no rule
loads (notes/assumptions/10.md). -/
opaque unloadedBeat (draws : Nat) : Beat

end Sys2Proof.Config
end

