-- ==== Sys2Proof/Machine/State.lean ====
section
/-! DEFINITION. The state of the machine, the reasons a step can stop, and the state after reset. -/

namespace Sys2Proof.Machine

/-- The six states of a TransferSession (spec/10_state.md R35). -/
inductive SessionState where
  | idle | headerSent | payloadSent | enabled | polling | completed
deriving DecidableEq, Repr

/-- A TransferSession (R35; spec/43_transfer_session.md R190). -/
structure Session where
  state : SessionState
  /-- The run has ended: `Completed`, or one of the two reports (R201). -/
  ended : Bool
  /-- The block the session runs on, by its `HDR_BASE`: "its own set of address parameters" (R198). -/
  block : Nat
  txHeader : Header
  txBeats : List Beat
  /-- The beats of `txBeats` not pushed yet (R192). -/
  toPush : List Beat
  /-- POLL.READs made (R190 `polls`). -/
  polls : Nat
  /-- The non-zero value that ended the poll (R190 `n`); 0 before. -/
  count : Nat
  /-- The header report read so far (R195), which becomes `rxHeader` in `Completed`. -/
  readHeader : Option Header
  /-- The beats popped so far, in the order read (R195), which become `rxBeats` in `Completed`. -/
  readBeats : List Beat
  /-- "empty until `Completed`" (R38). -/
  rxHeader : Option Header
  /-- "empty until `Completed`" (R38). -/
  rxBeats : List Beat
deriving DecidableEq, Repr

/-- What a finished call hands the host (spec/60_exceptions.md R210, R211). Reports are results. -/
inductive Result where
  /-- No call has finished, or the host is inside SESSION.RUN. -/
  | pending
  /-- The call returned no value. -/
  | done
  | u8 (v : Byte)
  | u32 (v : Word32)
  | u64 (v : Word64)
  /-- An `i64` as its two's-complement bits. -/
  | i64 (v : Word64)
  | i64s (vs : List Word64)
  | flag (b : Bool)
  | beats (bs : List Beat)
  | bytes (bs : List Byte)
  | header (h : Header)
  | count (n : Nat)
  /-- `(rxHeader, rxPayload)` of SESSION.RUN. -/
  | transfer (rxHeader : Header) (rxPayload : List Byte)
  /-- `(pass, mismatchCount, mismatchIndices)` of VALIDATE; `pass = false` is ValidationMismatch (R212). -/
  | comparison (pass : Bool) (mismatches : Nat) (indices : List Nat)
  /-- `report ShapeError(L)` (R212). -/
  | shapeError (length : Nat)
  /-- `report Timeout(polls)` (R212). -/
  | timeout (polls : Nat)
deriving DecidableEq, Repr

/-- One register block of the platform (spec/60_exceptions.md R220) with its pipeline: its parameters, its
registers, and how far its transfer is. -/
structure Block where
  /-- The configuration (R23): no step writes it. -/
  cfg : Config.Params
  /-- `HDR_IN[0..6]` (R26). -/
  hdrIn : Header
  /-- `HDR_OUT[0..6]` (R27). -/
  hdrOut : Header
  /-- `ENABLE` (R28), `CTRL_WIDTH` bits, zero-extended. -/
  enable : Word64
  /-- `WQ` (R29), head first. -/
  wq : List Beat
  /-- `RQ` (R30), head first. -/
  rq : List Beat
  /-- `WCOUNT` (R31), `CTRL_WIDTH` bits, zero-extended. -/
  wcount : Word64
  /-- `RCOUNT` (R31), `CTRL_WIDTH` bits, zero-extended. -/
  rcount : Word64
  /-- The pipeline runs: from EN.START to the non-zero poll (R38; R176; spec/60_exceptions.md R221). -/
  processing : Bool
  /-- The host has read a non-zero count: the pipeline has completed a transfer, so the poll register is no longer
  held at 0 (R38). -/
  answered : Bool
  /-- The pipeline's own state (R34), a number only the pipeline function reads. The model's own field. -/
  pipe : Nat
  /-- From EN.START until a non-zero poll or the end of the session (R176, R233). -/
  inTransfer : Bool
deriving DecidableEq, Repr

/-- The machine's whole state: a register block, the platform's other blocks if it has any (R198, R220), the codec's
working state, and the host's side. -/
structure State extends Block where
  /-- The other register blocks. -/
  others : List Block
  /-- `SER_ACC` (R32). -/
  serAcc : Word64
  /-- `SER_CNT` (R32), 0 to 8. -/
  serCnt : Nat
  /-- `DES_SHR` (R33). -/
  desShr : Word64
  /-- `DES_CNT` (R33), 0 to 8. -/
  desCnt : Nat
  /-- The session, if one exists (R35). -/
  session : Option Session
  /-- The host's calls not yet invoked, next first (R3, R20). The model's own field. -/
  calls : List Call
  /-- What the last finished call handed the host. The model's own field. -/
  result : Result
  /-- Free values met so far (R11 `draw`). The model's own field. -/
  draws : Nat
deriving DecidableEq, Repr

/-- Why the machine is stuck. -/
inductive Fault where
  /-- WQ.PUSH, REG.WR64 at `WQ_ADDR`, or a push of a session, on a full `WQ`: "the model has no step for the
  push (the host is stuck)" (spec/42_header_regs.md R174). Safe. -/
  | writeQueueFull
deriving DecidableEq, Repr

/-- Why a call has no meaning (spec/60_exceptions.md R210, R213). -/
inductive Refusal where
  /-- An instruction whose meaning is not written; raised by `exec`'s arms only. Safe. -/
  | notModelled (mnemonic : String)
  /-- ENCODE, DECODE, PACK, UNPACK with a width out of range (R213). Safe. -/
  | badWidth
  /-- PACK, UNPACK, FLAGOF with too many bits (R213). Safe. -/
  | layoutTooWide
  /-- A REG operation at an address, width or direction without a meaning, or an ENABLE write of a value
  other than 1 (R213). By the model's choice also any call made with address parameters no block has
  (notes/assumptions/24.md). Safe. -/
  | unmappedAccess
  /-- The serializer or deserializer with a beat size other than 8 (R213). Safe. -/
  | badBytesPerBeat
  /-- A register access or SESSION.RUN while a session is running (R213). Safe. -/
  | interleavedSessions
  /-- A header write, a push or a start between a start and its completion: "the model gives such a sequence no
  meaning" (spec/70_reset_and_hazards.md R233; spec/42_header_regs.md R176). Safe. -/
  | outOfOrder
  /-- `step` on a call that is not well formed (an `F` above 255, R110), the model's reading
  (notes/assumptions/25.md). Safe. -/
  | illFormed
deriving DecidableEq, Repr

/-- What an operation answers. -/
abbrev Answer := Host.Outcome State Fault Refusal

/-- A header of zeros. -/
def zeroHeader : Header := ⟨0, 0, 0, 0, 0, 0, 0⟩

/-- The state after reset (R38): queues and session empty, the poll register 0, the codec working state 0.
`HDR_IN`, `HDR_OUT`, `ENABLE`, `WCOUNT` and `DES_SHR` have no reset value in the spec: 0, a DESIGN CHOICE
(notes/assumptions/8.md, 10.md; unsafe). `cfg` is the default configuration (notes/assumptions/3.md), the platform one
block (notes/assumptions/24.md). -/
def State.reset : State where
  cfg := Config.Params.default
  hdrIn := zeroHeader
  hdrOut := zeroHeader
  enable := 0
  wq := []
  rq := []
  wcount := 0
  rcount := 0
  processing := false
  answered := false
  pipe := 0
  inTransfer := false
  others := []
  serAcc := 0
  serCnt := 0
  desShr := 0
  desCnt := 0
  session := none
  calls := []
  result := .pending
  draws := 0

end Sys2Proof.Machine
end

