-- ==== Sys2Proof/Machine/Operands.lean ====
section
/-! DEFINITION. Operand forms and data words: binary64 values, fixed-point fields, packed operands, beats, header
fields and register addresses (spec/30_encoding.md R82 to R90). -/

namespace Sys2Proof

/-! ### `f64` as the number it denotes (spec/40_fixedpoint.md R110, R124) -/

/-- The sign bit. -/
def F64.negative (v : F64) : Bool := v.getLsbD 63

/-- The 11 exponent bits. -/
def F64.exponentBits (v : F64) : Nat := (v.extractLsb' 52 11).toNat

/-- The 52 fraction bits. -/
def F64.fractionBits (v : F64) : Nat := (v.extractLsb' 0 52).toNat

/-- Neither a NaN nor an infinity. -/
def F64.finite (v : F64) : Bool := v.exponentBits ≠ 2047

/-- The significand as an integer, the hidden bit of a normal number included. -/
def F64.significand (v : F64) : Nat :=
  if v.exponentBits = 0 then v.fractionBits else v.fractionBits + 2 ^ 52

/-- The power of two over `2 ^ 1075` that scales the significand: a finite `v` denotes
`± significand * 2 ^ scale / 2 ^ 1075`. -/
def F64.scale (v : F64) : Nat := if v.exponentBits = 0 then 1 else v.exponentBits

namespace Machine

/-! ### Fixed-point fields (R82, R87, R88) -/

/-- `trunc(value * 2 ^ F)` for a finite value, exact and toward zero (R110): the magnitude is cut, the sign kept. -/
def truncScaled (value : F64) (frac : Nat) : Int :=
  let exponent := value.scale + frac
  let magnitude : Nat :=
    if 1075 ≤ exponent then value.significand <<< (exponent - 1075) else value.significand >>> (1075 - exponent)
  if value.negative then -(magnitude : Int) else magnitude

/-- The domain of ENCODE (R111): finite, and the truncated value is an `i64`. -/
def inEncodeDomain (value : F64) (frac : Nat) : Bool :=
  value.finite && decide (-2 ^ 63 ≤ truncScaled value frac) && decide (truncScaled value frac ≤ 2 ^ 63 - 1)

/-- `mask_W(x)` of an integer (spec/00_scope.md R11). -/
def maskInt (width : Nat) (x : Int) : Nat := (x % 2 ^ width).toNat

/-- The field ENCODE answers for `W <= 64` (R110): the masked integer, or outside the domain a free value
below `2 ^ W` (R111). -/
def encodeField (value : F64) (width frac : Nat) : Word64 :=
  if inEncodeDomain value frac then BitVec.ofNat 64 (maskInt width (truncScaled value frac))
  else BitVec.ofNat 64 ((Config.encodeDraw value width frac).toNat % 2 ^ width)

/-- `raw[W-1:0]` (R9). -/
def lowBits (raw : Word64) (width : Nat) : Word64 := raw &&& BitVec.ofNat 64 (2 ^ width - 1)

/-- `sext_W(raw[W-1:0])` for `1 <= W <= 64`, by the shifts of R113. -/
def decodeField (raw : Word64) (width : Nat) : Word64 :=
  (lowBits raw width <<< (64 - width)).sshiftRight (64 - width)

/-! ### Packed operands (R83) -/

/-- The sum of the widths of a list of fields; of the fields after one, its bit offset (R12). -/
def widthSum (widths : List Nat) : Nat := widths.sum

/-- The widths of lanes. -/
def laneWidths (lanes : List Lane) : List Nat := lanes.map Lane.width

/-- Every lane's field at its offset, combined by OR (R88, R116). -/
def packLanes : List Lane → Word64
  | [] => 0
  | l :: rest =>
    (encodeField l.value l.width l.frac <<< widthSum (laneWidths rest)) ||| packLanes rest

/-- Every field, shifted down from its offset and sign-extended (R87, R119). -/
def unpackFields (raw : Word64) : List Nat → List Word64
  | [] => []
  | w :: rest => decodeField (raw >>> widthSum rest) w :: unpackFields raw rest

/-! ### Beats (R84) -/

/-- One byte into the accumulator (spec/41_beatframer.md R142). -/
def serStep (order : Config.ByteOrder) (acc : Beat) (b : Byte) : Beat :=
  match order with
  | .lsbFirst => (acc >>> 8) ||| (b.setWidth 64 <<< 56)
  | .msbFirst => (acc <<< 8) ||| b.setWidth 64

/-- A beat: the bytes of a group pushed in forward order from 0 (R140). -/
def serGroup (order : Config.ByteOrder) (group : List Byte) : Beat := group.foldl (serStep order) 0

/-- The beats of a payload whose length is a multiple of 8 (R140). -/
def frameBeats (order : Config.ByteOrder) : List Byte → List Beat
  | b0 :: b1 :: b2 :: b3 :: b4 :: b5 :: b6 :: b7 :: rest =>
    serGroup order [b0, b1, b2, b3, b4, b5, b6, b7] :: frameBeats order rest
  | _ => []

/-- The byte DES.POP emits (R146). -/
def desByte (order : Config.ByteOrder) (shr : Beat) : Byte :=
  match order with
  | .lsbFirst => shr.extractLsb' 0 8
  | .msbFirst => shr.extractLsb' 56 8

/-- What DES.POP leaves in the shift register (R146). -/
def desNext (order : Config.ByteOrder) (shr : Beat) : Beat :=
  match order with
  | .lsbFirst => shr >>> 8
  | .msbFirst => shr <<< 8

/-- The bytes of `n` pops, in extraction order (R145). -/
def desPops (order : Config.ByteOrder) : Nat → Beat → List Byte
  | 0, _ => []
  | n + 1, shr => desByte order shr :: desPops order n (desNext order shr)

/-- The payload of beats (R145): 8 pops a beat. -/
def unframeBeats (order : Config.ByteOrder) (beats : List Beat) : List Byte := beats.flatMap (desPops order 8)

/-! ### Header fields and register addresses (R85, R86) -/

end Machine

/-- `HDR_IN_OFF[k]` (R26, R61). -/
def HField.inOffset : HField → Nat
  | .beatCount => 0x04
  | .compressedFlag => 0x0c
  | .encryptedFlag => 0x10
  | .eccFlag => 0x14
  | .compressedPadBytes => 0x18
  | .encryptedPadBytes => 0x1c
  | .eccPadBytes => 0x20

/-- `HDR_OUT_OFF[k]` (R27, R61). -/
def HField.outOffset : HField → Nat
  | .beatCount => 0x24
  | .compressedFlag => 0x28
  | .encryptedFlag => 0x2c
  | .eccFlag => 0x30
  | .compressedPadBytes => 0x34
  | .encryptedPadBytes => 0x38
  | .eccPadBytes => 0x3c

/-- `h[k]`. -/
def Header.get (h : Header) : HField → Word32
  | .beatCount => h.beatCount
  | .compressedFlag => h.compressedFlag
  | .encryptedFlag => h.encryptedFlag
  | .eccFlag => h.eccFlag
  | .compressedPadBytes => h.compressedPadBytes
  | .encryptedPadBytes => h.encryptedPadBytes
  | .eccPadBytes => h.eccPadBytes

/-- `h[k] <- v`. -/
def Header.set (h : Header) (f : HField) (v : Word32) : Header :=
  match f with
  | .beatCount => { h with beatCount := v }
  | .compressedFlag => { h with compressedFlag := v }
  | .encryptedFlag => { h with encryptedFlag := v }
  | .eccFlag => { h with eccFlag := v }
  | .compressedPadBytes => { h with compressedPadBytes := v }
  | .encryptedPadBytes => { h with encryptedPadBytes := v }
  | .eccPadBytes => { h with eccPadBytes := v }

namespace Machine

/-- Which register a host write reaches (spec/20_memory.md R56). -/
inductive WriteTarget where
  | hdrIn (f : HField)
  | writeQueue
  | enable
deriving DecidableEq, Repr

/-- Which register a host read reaches (R56). `RCOUNT` is readable only as the poll register. -/
inductive ReadTarget where
  | hdrOut (f : HField)
  | readQueue
  | pollRcount
deriving DecidableEq, Repr

/-- The register a write of this width at this address has a meaning for (R56, R57, R179). Where a configuration
gives two registers one address, which R62 forbids, the first found is meant (notes/assumptions/23.md). -/
def writeTarget (cfg : Config.Params) (width : Config.Width) (addr : Nat) : Option WriteTarget :=
  match width, HField.all.find? (fun f => cfg.hdrBase + f.inOffset == addr) with
  | .w32, some f => some (.hdrIn f)
  | .w32, none => if addr = cfg.enableAddr ∧ cfg.ctrlWidth = .w32 then some .enable else none
  | .w64, _ =>
    if addr = cfg.wqAddr then some .writeQueue
    else if addr = cfg.enableAddr ∧ cfg.ctrlWidth = .w64 then some .enable
    else none

/-- The register a read of this width at this address has a meaning for (R56, R57, R179). -/
def readTarget (cfg : Config.Params) (width : Config.Width) (addr : Nat) : Option ReadTarget :=
  match width, HField.all.find? (fun f => cfg.hdrBase + f.outOffset == addr) with
  | .w32, some f => some (.hdrOut f)
  | .w32, none =>
    if addr = cfg.rcountAddr ∧ cfg.pollAt = .rcount ∧ cfg.ctrlWidth = .w32 then some .pollRcount else none
  | .w64, _ =>
    if addr = cfg.rqAddr then some .readQueue
    else if addr = cfg.rcountAddr ∧ cfg.pollAt = .rcount ∧ cfg.ctrlWidth = .w64 then some .pollRcount
    else none

/-- A value held in a register of `CTRL_WIDTH` bits. -/
def fitWidth (width : Config.Width) (v : Word64) : Word64 :=
  match width with
  | .w32 => (v.setWidth 32).setWidth 64
  | .w64 => v

/-! ### Comparison of payloads (spec/43_transfer_session.md R197) -/

/-- The positions at which two payloads differ, ascending; a position beyond the shorter one differs. -/
def mismatchIndices (received expected : List Byte) : List Nat :=
  (List.range (max received.length expected.length)).filter fun i =>
    decide (received.length ≤ i) || decide (expected.length ≤ i) || decide (received[i]? ≠ expected[i]?)

end Machine

end Sys2Proof
end

