-- ==== Sys2Proof/Machine/Flags.lean ====
section
/-! DEFINITION. Flags. The block has no status flags (spec/10_state.md R24): no operation writes one. What the spec
calls a flag is one data bit of a packed operand (spec/30_encoding.md R83, R89). -/

namespace Sys2Proof.Machine

/-- The mode flag placed at bit `S` of a packed operand (R89; spec/92_eei_decisions.md D6). -/
def flagBit (flag : Bool) (position : Nat) : Word64 := (if flag then 1 else 0) <<< position

/-- The mode flag of a packed operand: `raw[S]` (spec/40_fixedpoint.md R121). -/
def flagOfWord (raw : Word64) (position : Nat) : Bool := raw.getLsbD position

/-- `EncodeOverflows(value, W, F)` for `W >= 1`: the truncated value does not fit `W` bits (R112). For use in
claims: the block does not compute it. R110 forms no `t` for a NaN or an infinity, so R112 leaves the predicate open there:
that it holds of every such value (`W <= 64`) is a DESIGN CHOICE (notes/assumptions/34.md). -/
def encodeOverflows (value : F64) (width frac : Nat) : Bool :=
  decide (truncScaled value frac < -2 ^ (width - 1)) || decide (2 ^ (width - 1) - 1 < truncScaled value frac)

end Sys2Proof.Machine
end

