-- ==== Sys2Proof/Machine/Ops.lean ====
section
/-! DEFINITION. The named operations over the state: handing back a result, the registers and queues, the guards of
the host protocol, and the pipeline's move. There is no trap to take and none to return from
(spec/60_exceptions.md R216, R218): an error is a result (R211), handed back by `State.finish`. -/

namespace Sys2Proof.Machine

/-! ### Results and reports -/

/-- A call ends and hands `r` to the host: a value, or a report (R211). Nothing else changes. -/
def State.finish (r : Result) (s : State) : State := { s with result := r }

/-- The host's calls not yet invoked are now `is`. -/
def State.setCalls (is : List Call) (s : State) : State := { s with calls := is }

/-- Go on with `k` if `a` is a next state. -/
def onNext (a : Answer) (k : State → Answer) : Answer :=
  match a with
  | .next s => k s
  | .fault f => .fault f
  | .refused r => .refused r

/-! ### Guards -/

/-- No session is running, so the host may call register operations (spec/20_memory.md R66). -/
def State.hostFree (s : State) : Bool :=
  match s.session with
  | none => true
  | some σ => σ.ended

/-- Register operations outside a session that is running (`InterleavedSessions`, spec/60_exceptions.md R213). -/
def State.whenHostFree (s : State) (a : Answer) : Answer :=
  if s.hostFree then a else .refused .interleavedSessions

/-- Header writes, pushes and starts stand before the start (spec/70_reset_and_hazards.md R233;
spec/42_header_regs.md R176; notes/assumptions/12.md). -/
def State.beforeStart (s : State) (a : Answer) : Answer :=
  if s.inTransfer then .refused .outOfOrder else a

/-- The serializer and deserializer at a beat of 8 bytes (spec/41_beatframer.md R141). -/
def State.withBeatOf8 (s : State) (a : Answer) : Answer :=
  if s.cfg.bytesPerBeat = 8 then a else .refused .badBytesPerBeat

/-! ### Register blocks (spec/60_exceptions.md R220) -/

/-- The block and the `j`-th other block change places. -/
def State.swap (j : Nat) (s : State) : State :=
  match s.others[j]? with
  | none => s
  | some b => { s with toBlock := b, others := s.others.set j s.toBlock }

/-- `k` on the first block whose parameters satisfy `p`, with every block left in its place. Where no block does,
nothing answers the address (spec/20_memory.md R57). -/
def State.atBlock (p : Config.Params → Bool) (k : State → Answer) (s : State) : Answer :=
  if p s.cfg then k s
  else
    match s.others.findIdx? fun b => p b.cfg with
    | some j => onNext (k (s.swap j)) fun t => .next (t.swap j)
    | none => .refused .unmappedAccess

/-- `k` on the block at the base `base`. That a call naming no block is refused is the model's choice
(notes/assumptions/24.md). -/
def State.onBlock (base : Nat) (k : State → Answer) (s : State) : Answer :=
  s.atBlock (fun cfg => cfg.hdrBase == base) k

/-! ### Register writes -/

/-- `HDR_IN[f] <- v` (spec/10_state.md R26). -/
def State.setHdrIn (f : HField) (v : Word32) (s : State) : State := { s with hdrIn := s.hdrIn.set f v }

/-- The seven writes of a header, in field order (spec/42_header_regs.md R172). -/
def State.setHeader (h : Header) (s : State) : State :=
  HField.all.foldl (fun s f => s.setHdrIn f (h.get f)) s

/-- `WQ` holds `QUEUE_DEPTH` beats (R174). -/
def State.wqFull (s : State) : Bool :=
  match s.cfg.queueDepth with
  | none => false
  | some d => decide (d ≤ s.wq.length)

/-- `WQ <- WQ ++ [b]`. -/
def State.enqueue (b : Beat) (s : State) : State := { s with wq := s.wq ++ [b] }

/-- A beat to the pipeline (R174): appended, or stuck on a full queue. -/
def State.pushWq (b : Beat) (s : State) : Answer :=
  s.beforeStart (if s.wqFull then .fault .writeQueueFull else .next (s.enqueue b))

/-- `ENABLE <- 1`; the pipeline is started, the transfer begins. The 1 stays until the pipeline changes it
(notes/assumptions/19.md). -/
def State.started (s : State) : State := { s with enable := 1, processing := true, inTransfer := true }

/-- EN.START's effect (R176): once per transfer. What a start without a header or a payload written before it does
is not in the spec, which makes the order header, payload, enable the host's duty (R232): it starts the pipeline on
what stands in the registers, DESIGN CHOICE (notes/assumptions/32.md); so does a push without a header. -/
def State.start (s : State) : Answer := s.beforeStart (.next s.started)

/-- A write of `v` at `addr` (spec/42_header_regs.md R170). -/
def State.regWrite (width : Config.Width) (addr : Nat) (v : Word64) (s : State) : Answer :=
  match writeTarget s.cfg width addr with
  | some (.hdrIn f) => s.beforeStart (.next (s.setHdrIn f (v.setWidth 32)))
  | some .writeQueue => s.pushWq v
  | some .enable => if v = 1 then s.start else .refused .unmappedAccess
  | none => .refused .unmappedAccess

/-! ### Register reads -/

/-- `HDR_OUT` as the host reads it (R27): the pipeline's registers, or what a mock puts there (R180, D32, P5). -/
def State.hdrOutView (s : State) : Header :=
  match s.cfg.transport with
  | .hardware => s.hdrOut
  | .mirror => s.hdrIn
  | .loopback => s.hdrIn
  | .silent =>
    match s.cfg.pollAt with
    | .hdrOut0 => { s.hdrOut with beatCount := 0 }
    | .rcount => s.hdrOut

/-- `RCOUNT` as the host reads it. -/
def State.rcountView (s : State) : Word64 :=
  match s.cfg.transport with
  | .silent => 0
  | .hardware => s.rcount
  | .mirror => s.rcount
  | .loopback => s.rcount

/-- The value in the poll register (R177). -/
def State.pollValue (s : State) : Nat :=
  match s.cfg.pollAt with
  | .rcount => s.rcountView.toNat
  | .hdrOut0 => s.hdrOutView.beatCount.toNat

/-- The pipeline's number once a transfer is over: the loopback mock counts the beats of the next transfer from 0
(notes/assumptions/33.md). -/
def Block.pipeAfterTransfer (b : Block) : Nat :=
  match b.cfg.transport with
  | .loopback => 0
  | .hardware => b.pipe
  | .mirror => b.pipe
  | .silent => b.pipe

/-- The host has read `n` in the poll register: a non-zero value ends the transfer, and the pipeline runs no longer
(spec/60_exceptions.md R221; notes/assumptions/12.md). -/
def State.noteCount (n : Nat) (s : State) : State :=
  if n = 0 then s
  else { s with inTransfer := false, processing := false, answered := true, pipe := s.pipeAfterTransfer }

/-- The state after a read of `HDR_OUT[f]`: `HDR_OUT[0]` may be the poll register. -/
def State.afterHdrRead (f : HField) (s : State) : State :=
  match f, s.cfg.pollAt with
  | .beatCount, .hdrOut0 => s.noteCount s.pollValue
  | _, _ => s

/-- The head of `RQ`, removed; from an empty `RQ` a free value (R175, C9). -/
def State.popRq (s : State) : Beat × State :=
  match s.rq with
  | [] => (Config.emptyPop s.draws s.pipe, { s with draws := s.draws + 1 })
  | b :: rest => (b, { s with rq := rest })

/-- A read at `addr` (spec/42_header_regs.md R171): the value and the state after, if the access has a meaning. -/
def State.regRead (width : Config.Width) (addr : Nat) (s : State) : Option (Word64 × State) :=
  match readTarget s.cfg width addr with
  | some (.hdrOut f) => some ((s.hdrOutView.get f).setWidth 64, s.afterHdrRead f)
  | some .readQueue => some s.popRq
  | some .pollRcount => some (s.rcountView, s.noteCount s.pollValue)
  | none => none

/-! ### Codec working state -/

/-- The state in which a byte is pushed: a complete beat is left behind and the next group starts from
`SER_ACC = 0`, `SER_CNT = 0` (spec/10_state.md R38; notes/assumptions/9.md). -/
def State.readyToPush (s : State) : State := if s.serCnt < 8 then s else { s with serAcc := 0, serCnt := 0 }

/-- The state in which a byte is popped: after the last byte of a beat the next beat is a free value, no rule
loading one (spec/41_beatframer.md R146; notes/assumptions/10.md). -/
def State.readyToPop (s : State) : State :=
  if s.desCnt < 8 then s
  else { s with desShr := Config.unloadedBeat s.draws, desCnt := 0, draws := s.draws + 1 }

/-- One byte into the serializer (R142). -/
def State.pushByte (b : Byte) (s : State) : State :=
  let r := s.readyToPush
  { r with serAcc := serStep r.cfg.serOrder r.serAcc b, serCnt := r.serCnt + 1 }

/-- One byte out of the deserializer (R146): the byte `desByte` gives is gone. -/
def State.popByte (s : State) : State :=
  let r := s.readyToPop
  { r with desShr := desNext r.cfg.desOrder r.desShr, desCnt := r.desCnt + 1 }

/-- `SER_ACC` and `SER_CNT` after TOBEATS produced `beats` (R140): the last group's. -/
def State.afterFraming (beats : List Beat) (s : State) : State :=
  match beats.getLast? with
  | none => s
  | some b => { s with serAcc := b, serCnt := 8 }

/-- `DES_SHR` and `DES_CNT` after FROMBEATS consumed `beats` (R145, R146): all of the last beat is shifted out. -/
def State.afterUnframing (beats : List Beat) (s : State) : State :=
  if beats = [] then s else { s with desShr := 0, desCnt := 8 }

/-! ### The session in the state -/

/-- The session is now `σ`. -/
def State.setSession (σ : Session) (s : State) : State := { s with session := some σ }

/-- A session that has ended is discarded (spec/10_state.md R35). -/
def State.discardEnded (s : State) : State := { s with session := s.session.filter fun σ => !σ.ended }

/-! ### The pipeline agent -/

/-- The registers of a block after a move of its pipeline (spec/10_state.md R34). It runs "only between `EN.START` and
the non-zero poll" (spec/60_exceptions.md R221): at other times it leaves the queues and `ENABLE` alone. What a read of
`HDR_OUT` or a count register finds is then unspecified still (R38; R60), but for the poll register, which is 0 until
a first transfer is completed (R38; notes/assumptions/5.md). -/
def Block.applyMove (m : Config.PipelineMove) (b : Block) : Block :=
  let counts := fitWidth b.cfg.ctrlWidth
  if b.processing then
    { b with
      hdrOut := m.hdrOut, enable := counts m.enable, wq := b.wq.drop m.takes, rq := b.rq ++ m.gives,
      wcount := counts m.wcount, rcount := counts m.rcount, pipe := m.pipe }
  else if b.answered then
    { b with hdrOut := m.hdrOut, wcount := counts m.wcount, rcount := counts m.rcount, pipe := m.pipe }
  else
    match b.cfg.pollAt with
    | .rcount => { b with hdrOut := m.hdrOut, wcount := counts m.wcount, pipe := m.pipe }
    | .hdrOut0 =>
      { b with
        hdrOut := { m.hdrOut with beatCount := b.hdrOut.beatCount },
        wcount := counts m.wcount, rcount := counts m.rcount, pipe := m.pipe }

/-- The loopback mock (spec/92_eei_decisions.md D32): `RQ` receives what `WQ` was given, and `RCOUNT` reads 0 before
EN.START and the number of beats pushed after it (spec/95_test_vectors.md P2). DESIGN CHOICE (notes/assumptions/33.md):
the beats counted are those pushed since the last transfer ended. -/
def Block.loopBack (b : Block) : Block :=
  let pushed := b.pipe + b.wq.length
  { b with
    wq := [], rq := b.rq ++ b.wq, pipe := pushed,
    rcount := if b.processing then fitWidth b.cfg.ctrlWidth (BitVec.ofNat 64 pushed) else 0 }

/-- A block after its pipeline's turn. -/
def Block.turn (b : Block) : Block :=
  match b.cfg.transport with
  | .hardware => b.applyMove (Config.pipelineMove b.cfg.hdrBase b.pipe b.processing b.hdrIn b.wq b.rq)
  | .mirror => b.applyMove (Config.pipelineMove b.cfg.hdrBase b.pipe b.processing b.hdrIn b.wq b.rq)
  | .loopback => b.loopBack
  | .silent => b

/-- The pipelines' turn: what they do between two accesses of the host, each to its own block. -/
def State.pipelineTurn (s : State) : State :=
  { s with toBlock := s.toBlock.turn, others := s.others.map Block.turn }

end Sys2Proof.Machine
end

