-- ==== Sys2Proof/Machine/Beatframer.lean ====
section
/-! DEFINITION. The BeatFramer (spec/41_beatframer.md). -/

namespace Sys2Proof.Machine

/-- TOBEATS (R140): a length that is no multiple of 8 is reported before any beat (R151). -/
def execToBeats (payload : List Byte) (s : State) : Answer :=
  s.withBeatOf8
    (if payload.length % 8 = 0 then
      .next ((s.afterFraming (frameBeats s.cfg.serOrder payload)).finish
        (.beats (frameBeats s.cfg.serOrder payload)))
    else .next (s.finish (.shapeError payload.length)))

/-- SER.PUSH (R142). -/
def execSerPush (byte : Byte) (s : State) : Answer :=
  s.withBeatOf8 (.next ((s.pushByte byte).finish .done))

/-- FROMBEATS (R145). -/
def execFromBeats (beats : List Beat) (s : State) : Answer :=
  s.withBeatOf8
    (.next ((s.afterUnframing beats).finish (.bytes (unframeBeats s.cfg.desOrder beats))))

/-- DES.POP (R146). -/
def execDesPop (s : State) : Answer :=
  s.withBeatOf8 (.next (s.popByte.finish (.u8 (desByte s.cfg.desOrder s.readyToPop.desShr))))

end Sys2Proof.Machine
end

