-- ==== Sys2Proof/Machine/Fixedpoint.lean ====
section
/-! DEFINITION. The FixedPointCodec (spec/40_fixedpoint.md). The five operations are functions of their operands
(spec/10_state.md R21): of the state only the result handed to the host changes. -/

namespace Sys2Proof.Machine

/-- ENCODE (R110). -/
def execEncode (value : F64) (width frac : Nat) (s : State) : Answer :=
  if 64 < width then .refused .badWidth
  else .next (s.finish (.u64 (encodeField value width frac)))

/-- DECODE (R113). -/
def execDecode (raw : Word64) (width : Nat) (s : State) : Answer :=
  if width < 1 ∨ 64 < width then .refused .badWidth
  else .next (s.finish (.i64 (decodeField raw width)))

/-- PACK (R116): `BadWidth` before `LayoutTooWide` (spec/60_exceptions.md R215), both before any lane. -/
def execPack (lanes : List Lane) (flag : Bool) (s : State) : Answer :=
  if lanes.any fun l => decide (l.width < 1) || decide (63 < l.width) then .refused .badWidth
  else if 64 < widthSum (laneWidths lanes) + 1 then .refused .layoutTooWide
  else .next (s.finish (.u64 (flagBit flag (widthSum (laneWidths lanes)) ||| packLanes lanes)))

/-- UNPACK (R119). -/
def execUnpack (raw : Word64) (widths : List Nat) (s : State) : Answer :=
  if widths.any fun w => decide (w < 1) || decide (64 < w) then .refused .badWidth
  else if 64 < widthSum widths then .refused .layoutTooWide
  else .next (s.finish (.i64s (unpackFields raw widths)))

/-- FLAGOF (R121). -/
def execFlagOf (raw : Word64) (widths : List Nat) (s : State) : Answer :=
  if 63 < widthSum widths then .refused .layoutTooWide
  else .next (s.finish (.flag (flagOfWord raw (widthSum widths))))

end Sys2Proof.Machine
end

