-- ==== Sys2Proof/Machine/HeaderRegs.lean ====
section
/-! DEFINITION. Register transport, PipelineHeader and queue operations (spec/42_header_regs.md). -/

namespace Sys2Proof.Machine

/-- REG.WR32 (R170), on the block that has the address. -/
def execRegWr32 (addr : Nat) (value : Word32) (s : State) : Answer :=
  s.whenHostFree
    (s.atBlock (fun cfg => (writeTarget cfg .w32 addr).isSome) fun b =>
      onNext (b.regWrite .w32 addr (value.setWidth 64)) fun t => .next (t.finish .done))

/-- REG.WR64 (R170), on the block that has the address. -/
def execRegWr64 (addr : Nat) (value : Word64) (s : State) : Answer :=
  s.whenHostFree
    (s.atBlock (fun cfg => (writeTarget cfg .w64 addr).isSome) fun b =>
      onNext (b.regWrite .w64 addr value) fun t => .next (t.finish .done))

/-- REG.RD32 (R171), on the block that has the address: "the whole register value with no extension". -/
def execRegRd32 (addr : Nat) (s : State) : Answer :=
  s.whenHostFree
    (s.atBlock (fun cfg => (readTarget cfg .w32 addr).isSome) fun b =>
      match b.regRead .w32 addr with
      | some (v, t) => .next (t.finish (.u32 (v.setWidth 32)))
      | none => .refused .unmappedAccess)

/-- REG.RD64 (R171), on the block that has the address. -/
def execRegRd64 (addr : Nat) (s : State) : Answer :=
  s.whenHostFree
    (s.atBlock (fun cfg => (readTarget cfg .w64 addr).isSome) fun b =>
      match b.regRead .w64 addr with
      | some (v, t) => .next (t.finish (.u64 v))
      | none => .refused .unmappedAccess)

/-- HDR.WRITE (R172). -/
def execHdrWrite (header : Header) (s : State) : Answer :=
  s.whenHostFree (s.beforeStart (.next ((s.setHeader header).finish .done)))

/-- HDR.READ (R173). -/
def execHdrRead (s : State) : Answer :=
  s.whenHostFree (.next ((s.afterHdrRead .beatCount).finish (.header s.hdrOutView)))

/-- WQ.PUSH (R174). -/
def execWqPush (beat : Beat) (s : State) : Answer :=
  s.whenHostFree (onNext (s.pushWq beat) fun t => .next (t.finish .done))

/-- RQ.POP (R175). -/
def execRqPop (s : State) : Answer :=
  s.whenHostFree (.next (s.popRq.2.finish (.u64 s.popRq.1)))

/-- EN.START (R176). -/
def execEnStart (s : State) : Answer :=
  s.whenHostFree (onNext s.start fun t => .next (t.finish .done))

/-- POLL.READ (R177). -/
def execPollRead (s : State) : Answer :=
  s.whenHostFree (.next ((s.noteCount s.pollValue).finish (.count s.pollValue)))

end Sys2Proof.Machine
end

