-- ==== Sys2Proof/Machine/TransferSession.lean ====
section
/-! DEFINITION. The TransferSession (spec/43_transfer_session.md): SESSION.RUN creates the session, `sessionStep`
takes it from one transport call to the next (the pipeline may move in between, and may never complete: R234),
VALIDATE compares the result. -/

namespace Sys2Proof.Machine

/-- A session as it is created, in `Idle`, on the block at `block` (R190, R198). -/
def Session.create (block : Nat) (txHeader : Header) (txBeats : List Beat) : Session where
  state := .idle
  ended := false
  block := block
  txHeader := txHeader
  txBeats := txBeats
  toPush := txBeats
  polls := 0
  count := 0
  readHeader := none
  readBeats := []
  rxHeader := none
  rxBeats := []

/-- SESSION.RUN (R190): a payload whose length is no multiple of 8 ends the run in `Idle` with a report and no
register touched; otherwise the session stands in `Idle` with its beats framed, and the host is inside it until
it has ended. -/
def execSessionRun (txHeader : Header) (payload : List Byte) (s : State) : Answer :=
  s.whenHostFree
    (s.withBeatOf8
      (if payload.length % 8 = 0 then
        let beats := frameBeats s.cfg.serOrder payload
        .next (((s.afterFraming beats).setSession (Session.create s.cfg.hdrBase txHeader beats)).finish .pending)
      else
        .next ((s.setSession { Session.create s.cfg.hdrBase txHeader [] with ended := true }).finish
          (.shapeError payload.length))))

/-- The bound of the poll is reached after `polls` reads (R200). -/
def State.pollLimitReached (polls : Nat) (s : State) : Bool :=
  match s.cfg.pollLimit with
  | none => false
  | some k => decide (k ≤ polls)

/-- `report Timeout(polls)` (R200): the session has ended in `Polling`. -/
def State.reportTimeout (σ : Session) (s : State) : State :=
  ({ s with inTransfer := false }.setSession { σ with ended := true }).finish (.timeout σ.polls)

/-- One POLL.READ of the loop (R194): a non-zero value leaves the loop, a zero goes round again or times out. -/
def pollStep (σ : Session) (s : State) : State :=
  let n := s.pollValue
  let σ' := { σ with polls := σ.polls + 1, count := n }
  if n = 0 ∧ s.pollLimitReached σ'.polls then s.reportTimeout σ'
  else (s.noteCount n).setSession σ'

/-- The second half of transition 4 (R195), after the poll returned `n = count`: the header, then `n` pops, then
FROMBEATS and `Completed`, with which `rxHeader` and `rxBeats` are filled (R38). -/
def receiveStep (σ : Session) (s : State) : State :=
  match σ.readHeader with
  | none => (s.afterHdrRead .beatCount).setSession { σ with readHeader := some s.hdrOutView }
  | some h =>
    if σ.readBeats.length < σ.count then s.popRq.2.setSession { σ with readBeats := σ.readBeats ++ [s.popRq.1] }
    else
      ((s.afterUnframing σ.readBeats).setSession
        { σ with state := .completed, ended := true, rxHeader := some h, rxBeats := σ.readBeats }).finish
          (.transfer h (unframeBeats s.cfg.desOrder σ.readBeats))

/-- The next transport call or transition of a session that has not ended (R190 to R195). -/
def sessionStep (σ : Session) (s : State) : Answer :=
  match σ.state with
  | .idle => s.beforeStart (.next ((s.setHeader σ.txHeader).setSession { σ with state := .headerSent }))
  | .headerSent =>
    match σ.toPush with
    | [] => .next (s.setSession { σ with state := .payloadSent })
    | b :: rest => onNext (s.pushWq b) fun t => .next (t.setSession { σ with toPush := rest })
  | .payloadSent => onNext s.start fun t => .next (t.setSession { σ with state := .enabled })
  | .enabled => .next (s.setSession { σ with state := .polling })
  | .polling => .next (if σ.count = 0 then pollStep σ s else receiveStep σ s)
  | .completed => .next (s.setSession { σ with ended := true })

/-- VALIDATE (R197). A session that has ended is "discarded after validation" (spec/10_state.md R35). -/
def execValidate (rxPayload expected : List Byte) (s : State) : Answer :=
  let found := mismatchIndices rxPayload expected
  .next (s.discardEnded.finish
    (.comparison (decide (found.length = 0)) found.length found))

end Sys2Proof.Machine
end

