-- ==== Sys2Proof/Machine/Dispatch.lean ====
section
/-! DEFINITION. One arm per operation. -/

namespace Sys2Proof.Machine

/-- The meaning of a call: the host's part of a step. -/
def exec (i : Instr) (s : State) : Host.Outcome State Fault Refusal :=
  match i with
  | .encode value width frac => Sys2Proof.Machine.execEncode value width frac s
  | .decode raw width => Sys2Proof.Machine.execDecode raw width s
  | .pack lanes flag => Sys2Proof.Machine.execPack lanes flag s
  | .unpack raw widths => Sys2Proof.Machine.execUnpack raw widths s
  | .flagOf raw widths => Sys2Proof.Machine.execFlagOf raw widths s
  | .toBeats payload => Sys2Proof.Machine.execToBeats payload s
  | .serPush byte => Sys2Proof.Machine.execSerPush byte s
  | .fromBeats beats => Sys2Proof.Machine.execFromBeats beats s
  | .desPop => Sys2Proof.Machine.execDesPop s
  | .regWr32 addr value => Sys2Proof.Machine.execRegWr32 addr value s
  | .regWr64 addr value => Sys2Proof.Machine.execRegWr64 addr value s
  | .regRd32 addr => Sys2Proof.Machine.execRegRd32 addr s
  | .regRd64 addr => Sys2Proof.Machine.execRegRd64 addr s
  | .hdrWrite header => Sys2Proof.Machine.execHdrWrite header s
  | .hdrRead => Sys2Proof.Machine.execHdrRead s
  | .wqPush beat => Sys2Proof.Machine.execWqPush beat s
  | .rqPop => Sys2Proof.Machine.execRqPop s
  | .enStart => Sys2Proof.Machine.execEnStart s
  | .pollRead => Sys2Proof.Machine.execPollRead s
  | .sessionRun txHeader payload => Sys2Proof.Machine.execSessionRun txHeader payload s
  | .validate rxPayload expected => Sys2Proof.Machine.execValidate rxPayload expected s

end Sys2Proof.Machine
end

