-- ==== Sys2Proof/Machine/Step.lean ====
section
/-! DEFINITION. One step of the machine: the pipeline's turn, then the host's next access. There is no fetch
(spec/10_state.md R24): the host calls one operation after another (R3, R20), and inside SESSION.RUN one transport
call after another. -/

namespace Sys2Proof.Machine

/-- One step. A host with no call left does nothing. A session's accesses go to its block, a call's to the block it
names. -/
def step (s : State) : Host.Outcome State Fault Refusal :=
  let t := s.pipelineTurn
  match t.session.filter fun σ => !σ.ended, t.calls with
  | some σ, _ => t.onBlock σ.block (sessionStep σ)
  | none, [] => .next t
  | none, c :: rest =>
    if c.op.wellFormed then (t.setCalls rest).onBlock c.block (exec c.op) else .refused .illFormed

/-- `s` about to invoke the call in the record of `w`: it becomes the next call, made with the address parameters of
the block, and a session still running, which would come first, is gone. A record that is no call changes nothing. -/
def State.withFetchWord (s : State) (nbits w : Nat) : State :=
  match decodeTableWord nbits w with
  | some i => { s with calls := ⟨s.cfg.hdrBase, i⟩ :: s.calls, session := s.session.filter fun σ => σ.ended }
  | none => s

end Sys2Proof.Machine
end

