-- ==== Sys2Proof/Safety.lean ====
section
/-! DEFINITION. The terms claims are stated in: the number an `f64` denotes, valid configurations and layouts, the
premises of spec/70_reset_and_hazards.md R244, and the invariant of the machine. -/

namespace Sys2Proof

/-- The rational a finite binary64 value denotes (IEEE 754; spec/40_fixedpoint.md R110 "value read as the rational
it denotes"). -/
def ratValue (v : F64) : ℚ :=
  (if v.negative then -1 else 1) *
    (if v.exponentBits = 0 then (v.fractionBits : ℚ) / 2 ^ 52 * (2 : ℚ) ^ (-1022 : ℤ)
     else (1 + (v.fractionBits : ℚ) / 2 ^ 52) * (2 : ℚ) ^ ((v.exponentBits : ℤ) - 1023))

/-- `trunc(q)`: toward zero (spec/00_scope.md R11). -/
def ratTrunc (q : ℚ) : ℤ := if 0 ≤ q then ⌊q⌋ else ⌈q⌉

/-- `t` of R110: `trunc(value * 2^F)`. -/
def encodeTarget (v : F64) (frac : Nat) : ℤ := ratTrunc (ratValue v * 2 ^ frac)

/-- The domain of ENCODE, as R111 words it. -/
def EncodeDomain (v : F64) (frac : Nat) : Prop :=
  v.finite = true ∧ -2 ^ 63 ≤ encodeTarget v frac ∧ encodeTarget v frac ≤ 2 ^ 63 - 1

/-- A layout PACK admits (R8, R231): each `1 <= W_i <= 63`, and the sum and the flag fit one word. -/
abbrev LayoutValid (widths : List Nat) : Prop := (∀ w ∈ widths, 1 ≤ w ∧ w ≤ 63) ∧ widths.sum + 1 ≤ 64

/-- `LayoutAgreed` (R244, R236): host and hardware hold the same layout, a list of `(W, F)` that PACK admits. -/
abbrev LayoutAgreed (host hardware : List (Nat × Nat)) : Prop := host = hardware ∧ LayoutValid (host.map Prod.fst)

/-- `OrderAgreed` (R244, R237): the serializer, the deserializer and the hardware hold the same byte order. -/
abbrev OrderAgreed (cfg : Config.Params) (hardware : Config.ByteOrder) : Prop :=
  cfg.serOrder = hardware ∧ cfg.desOrder = hardware

/-- The offset of field `i`: the sum of the widths after it (R12). -/
def fieldOffset (widths : List Nat) (i : Nat) : Nat := (widths.drop (i + 1)).sum

/-- Where byte `k` of a group lies in its beat, in bytes from the least significant (R50, R51, R84). -/
def bytePlace (order : Config.ByteOrder) (k : Nat) : Nat :=
  match order with
  | .lsbFirst => k
  | .msbFirst => 7 - k

/-- The addresses R62 wants pairwise distinct. -/
def Config.Params.addresses (cfg : Config.Params) : List Nat :=
  [cfg.hdrBase, cfg.wqAddr, cfg.wcountAddr, cfg.rqAddr, cfg.rcountAddr, cfg.enableAddr] ++
    HField.all.map (fun f => cfg.hdrBase + f.inOffset) ++ HField.all.map (fun f => cfg.hdrBase + f.outOffset)

/-- `ConfigValid` (R244): the checks of R7, R8, R57, R62, R231. -/
abbrev ConfigValid (cfg : Config.Params) : Prop :=
  cfg.bytesPerBeat = 8 ∧ cfg.hdrBase % 4 = 0 ∧ cfg.wqAddr % 8 = 0 ∧ cfg.rqAddr % 8 = 0 ∧
    cfg.addresses.Nodup ∧ cfg.queueDepth ≠ some 0 ∧ cfg.pollLimit ≠ some 0

namespace Machine

/-- `CleanEntry` (R244). -/
abbrev CleanEntry (s : State) : Prop :=
  s.wq = [] ∧ s.rq = [] ∧ s.pollValue = 0 ∧ s.processing = false

/-- The blocks of the platform, the one at hand first (spec/60_exceptions.md R220). -/
def State.blocks (s : State) : List Block := s.toBlock :: s.others

/-- The first block at a base. -/
def State.blockAt (s : State) (base : Nat) : Option Block := s.blocks.find? fun b => b.cfg.hdrBase == base

/-- A platform whose blocks are each valid and share no address (R62, R220). -/
abbrev PlatformValid (s : State) : Prop :=
  (∀ b ∈ s.blocks, ConfigValid b.cfg) ∧ (s.blocks.flatMap fun b => b.cfg.addresses).Nodup

/-- The host is free to call and no transfer is under way on the block. -/
abbrev HostMayAccess (s : State) : Prop := s.hostFree = true ∧ s.inTransfer = false

/-- `PipelineCompletes` (R244, R234): some number of steps on, while it runs, "the pipeline eventually makes the poll
register non-zero", so that the host's next access finds it so. -/
def PipelineCompletes (s : State) : Prop :=
  ∃ k t, Host.Core.run core k s = .next t ∧ t.processing = true ∧ t.pipelineTurn.pollValue ≠ 0

/-- The block's transfer is over: a non-zero count has been read, and the pipeline runs no longer (R221;
notes/assumptions/12.md). -/
def State.transferOver (s : State) : State := { s with inTransfer := false, processing := false, answered := true }

/-- `NoRefusal` (R244): no operation of the first `k` steps is refused. -/
def NoRefusal (k : Nat) (s : State) : Prop := ∀ j ≤ k, ∀ r, Host.Core.run core j s ≠ .refused r

/-- Calls one after another, each in the state the one before left; no pipeline move in between. -/
def execAll : List Instr → State → Answer
  | [], s => .next s
  | i :: rest, s => onNext (exec i s) (execAll rest)

/-- The codec operations of R21. -/
def Codec : Instr → Prop
  | .encode _ _ _ => True
  | .decode _ _ => True
  | .pack _ _ => True
  | .unpack _ _ => True
  | .flagOf _ _ => True
  | _ => False

/-- The register operations and the session, which R66 keeps out of a running session. -/
def TouchesRegisters : Instr → Prop
  | .regWr32 _ _ => True
  | .regWr64 _ _ => True
  | .regRd32 _ => True
  | .regRd64 _ => True
  | .hdrWrite _ => True
  | .hdrRead => True
  | .wqPush _ => True
  | .rqPop => True
  | .enStart => True
  | .pollRead => True
  | .sessionRun _ _ => True
  | _ => False

/-- A session that has received nothing yet (R38). -/
def Session.NothingRead (σ : Session) : Prop :=
  σ.readHeader = none ∧ σ.readBeats = [] ∧ σ.rxHeader = none ∧ σ.rxBeats = []

/-- A session as R190 to R201 let it be, state by state; `rxHeader` and `rxBeats` are "empty until `Completed`"
(R38). -/
def Session.Consistent (σ : Session) : Prop :=
  match σ.state with
  | .idle => σ.toPush = σ.txBeats ∧ σ.polls = 0 ∧ σ.count = 0 ∧ σ.NothingRead
  | .headerSent =>
    σ.ended = false ∧ (∃ sent, σ.txBeats = sent ++ σ.toPush) ∧ σ.polls = 0 ∧ σ.count = 0 ∧ σ.NothingRead
  | .payloadSent => σ.ended = false ∧ σ.toPush = [] ∧ σ.polls = 0 ∧ σ.count = 0 ∧ σ.NothingRead
  | .enabled => σ.ended = false ∧ σ.toPush = [] ∧ σ.polls = 0 ∧ σ.count = 0 ∧ σ.NothingRead
  | .polling =>
    σ.toPush = [] ∧ σ.readBeats.length ≤ σ.count ∧ (σ.readHeader = none → σ.readBeats = []) ∧
      (σ.count = 0 → σ.readHeader = none) ∧ (σ.count ≠ 0 → σ.ended = false ∧ 0 < σ.polls) ∧
      σ.rxHeader = none ∧ σ.rxBeats = []
  | .completed =>
    σ.ended = true ∧ σ.toPush = [] ∧ σ.count ≠ 0 ∧ σ.rxHeader ≠ none ∧ σ.rxHeader = σ.readHeader ∧
      σ.rxBeats = σ.readBeats ∧ σ.rxBeats.length = σ.count

/-- The session has been enabled and has not yet read a non-zero count. -/
def Session.Waiting (σ : Session) : Prop :=
  σ.ended = false ∧ (σ.state = .enabled ∨ σ.state = .polling ∧ σ.count = 0)

/-- A register of `CTRL_WIDTH` bits holds no more (R28, R31). -/
def FitsControl (cfg : Config.Params) (v : Word64) : Prop := cfg.ctrlWidth = .w32 → v.toNat < 2 ^ 32

/-- What every block keeps: its control registers in their width (R28, R31), its write queue in its depth (R29,
R174), and a pipeline that runs while a transfer is under way (R221). -/
def Block.Inv (b : Block) : Prop :=
  FitsControl b.cfg b.enable ∧ FitsControl b.cfg b.wcount ∧ FitsControl b.cfg b.rcount ∧
    (∀ d, b.cfg.queueDepth = some d → b.wq.length ≤ d) ∧ (b.inTransfer = true → b.processing = true)

/-- The machine's invariant. -/
def State.Inv (s : State) : Prop :=
  s.serCnt ≤ 8 ∧ s.desCnt ≤ 8 ∧ (∀ b ∈ s.blocks, b.Inv) ∧
    (∀ σ, s.session = some σ → σ.Consistent ∧
      (σ.Waiting → ∀ b, s.blockAt σ.block = some b → b.inTransfer = true))

/-- Everything a pipeline's turn can do to its block (R34): `HDR_OUT`, `ENABLE`, the counts and its own state anew,
beats off the head of `WQ` and onto the tail of `RQ`. -/
def Block.Moved (b b' : Block) : Prop :=
  ∃ (out : Header) (en wc rc : Word64) (wq rq : List Beat) (pipe : Nat),
    b' = { b with hdrOut := out, enable := en, wcount := wc, rcount := rc, wq := wq, rq := rq, pipe := pipe } ∧
      (∃ k, wq = b.wq.drop k) ∧ (∃ given, rq = b.rq ++ given)

/-- The next state of a session, or the same (R190). -/
def SessionState.follows : SessionState → SessionState → Prop
  | .idle, .headerSent => True
  | .headerSent, .headerSent => True
  | .headerSent, .payloadSent => True
  | .payloadSent, .enabled => True
  | .enabled, .polling => True
  | .polling, .polling => True
  | .polling, .completed => True
  | _, _ => False

end Machine

end Sys2Proof
end

