-- ==== Sys2Proof/Certificates/Slice0/Obligations.lean ====
section
/-! DEFINITION. The statements for the provers. Each says which rule of spec/ it formalises. -/

open Sys2Proof Sys2Proof.Machine

/-! ### The FixedPointCodec (spec/40_fixedpoint.md) -/

/-- R110, R111. ENCODE refuses `W > 64`; otherwise it answers a word below `2^W`, and in the domain of R111 that word
is `t = trunc(value * 2^F)`, computed on exact rationals, reduced modulo `2^W`. Nothing but the result changes. -/
def Obligations.EncodeMasksExactTruncation : Prop :=
  ∀ (v : F64) (w f : Nat) (s : State),
    (64 < w → exec (.encode v w f) s = .refused .badWidth) ∧
    (w ≤ 64 → ∃ r : Word64, exec (.encode v w f) s = .next { s with result := .u64 r } ∧ r.toNat < 2 ^ w ∧
      (EncodeDomain v f → (r.toNat : ℤ) = encodeTarget v f % 2 ^ w))

/-- R113. DECODE refuses a width outside `1..64`; otherwise the result is the low `W` bits, sign-extended, as an
`i64`, whatever stands above them. Nothing but the result changes. -/
def Obligations.DecodeSignExtendsLowBits : Prop :=
  ∀ (raw : Word64) (w : Nat) (s : State),
    (w < 1 ∨ 64 < w → exec (.decode raw w) s = .refused .badWidth) ∧
    (1 ≤ w ∧ w ≤ 64 → ∃ r : Word64, exec (.decode raw w) s = .next { s with result := .i64 r } ∧
      r.toInt = if raw.toNat % 2 ^ w < 2 ^ (w - 1) then ((raw.toNat % 2 ^ w : Nat) : ℤ)
        else ((raw.toNat % 2 ^ w : Nat) : ℤ) - 2 ^ w)

/-- R114, with the predicate `EncodeOverflows` of R112: DECODE after ENCODE gives `t` wrapped into the signed range of
`W` bits, which is `t` exactly when `t` lies in that range. -/
def Obligations.DecodeAfterEncodeWraps : Prop :=
  ∀ (v : F64) (w f : Nat) (s : State), 1 ≤ w → w ≤ 64 → EncodeDomain v f →
    ∃ r d : Word64, exec (.encode v w f) s = .next { s with result := .u64 r } ∧
      exec (.decode r w) s = .next { s with result := .i64 d } ∧
      d.toInt = (encodeTarget v f + 2 ^ (w - 1)) % 2 ^ w - 2 ^ (w - 1) ∧
      (d.toInt = encodeTarget v f ↔
        -2 ^ (w - 1) ≤ encodeTarget v f ∧ encodeTarget v f ≤ 2 ^ (w - 1) - 1) ∧
      (d.toInt = encodeTarget v f ↔ encodeOverflows v w f = false)

/-- R115, first sentence: when `t` fits `W` bits the recovered value `t / 2^F` differs from the operand by less than one
LSB and is never larger in magnitude. -/
def Obligations.RecoveredValueWithinOneLsb : Prop :=
  ∀ (v : F64) (w f : Nat) (s : State), 1 ≤ w → w ≤ 64 → EncodeDomain v f →
    -2 ^ (w - 1) ≤ encodeTarget v f → encodeTarget v f ≤ 2 ^ (w - 1) - 1 →
    ∃ r d : Word64, exec (.encode v w f) s = .next { s with result := .u64 r } ∧
      exec (.decode r w) s = .next { s with result := .i64 d } ∧
      |(d.toInt : ℚ) / 2 ^ f - ratValue v| < 1 / 2 ^ f ∧ |(d.toInt : ℚ) / 2 ^ f| ≤ |ratValue v|

/-- R116, R117. PACK refuses a lane width outside `1..63`, then a layout that does not fit one word. Otherwise the word
holds the flag at bit `S` with zeros above, and at each lane's offset the field that ENCODE answers for the lane. -/
def Obligations.PackPlacesFlagAndLanes : Prop :=
  ∀ (lanes : List Lane) (flag : Bool) (s : State),
    ((∃ l ∈ lanes, l.width < 1 ∨ 63 < l.width) → exec (.pack lanes flag) s = .refused .badWidth) ∧
    ((∀ l ∈ lanes, 1 ≤ l.width ∧ l.width ≤ 63) → 64 < (lanes.map Lane.width).sum + 1 →
      exec (.pack lanes flag) s = .refused .layoutTooWide) ∧
    (LayoutValid (lanes.map Lane.width) →
      ∃ r : Word64, exec (.pack lanes flag) s = .next { s with result := .u64 r } ∧
        r.toNat / 2 ^ (lanes.map Lane.width).sum = (if flag then 1 else 0) ∧
        ∀ (i : Nat) (l : Lane), lanes[i]? = some l →
          ∃ e : Word64, exec (.encode l.value l.width l.frac) s = .next { s with result := .u64 e } ∧
            r.toNat / 2 ^ fieldOffset (lanes.map Lane.width) i % 2 ^ l.width = e.toNat)

/-- R119. UNPACK refuses a width outside `1..64`, then a sum above 64. Otherwise there is one result a width, in list
order, and each is what DECODE answers for the word shifted down by the field's offset. -/
def Obligations.UnpackDecodesEachField : Prop :=
  ∀ (raw : Word64) (widths : List Nat) (s : State),
    ((∃ w ∈ widths, w < 1 ∨ 64 < w) → exec (.unpack raw widths) s = .refused .badWidth) ∧
    ((∀ w ∈ widths, 1 ≤ w ∧ w ≤ 64) → 64 < widths.sum → exec (.unpack raw widths) s = .refused .layoutTooWide) ∧
    ((∀ w ∈ widths, 1 ≤ w ∧ w ≤ 64) → widths.sum ≤ 64 →
      ∃ rs : List Word64, exec (.unpack raw widths) s = .next { s with result := .i64s rs } ∧
        rs.length = widths.length ∧
        ∀ (i w : Nat), widths[i]? = some w → ∃ r : Word64, rs[i]? = some r ∧
          exec (.decode (raw >>> fieldOffset widths i) w) s = .next { s with result := .i64 r })

/-- R120. A leading field of width 1 decodes to 0 or to -1, never to 1. -/
def Obligations.OneBitFieldIsZeroOrMinusOne : Prop :=
  ∀ (raw : Word64) (widths : List Nat) (s : State), (∀ w ∈ widths, 1 ≤ w ∧ w ≤ 64) → widths.sum ≤ 63 →
    ∃ (r : Word64) (rs : List Word64),
      exec (.unpack raw (1 :: widths)) s = .next { s with result := .i64s (r :: rs) } ∧
      r.toInt = if raw.getLsbD widths.sum then -1 else 0

/-- R121. FLAGOF refuses a sum above 63; otherwise it answers bit `S`. -/
def Obligations.FlagOfAnswersBitS : Prop :=
  ∀ (raw : Word64) (widths : List Nat) (s : State),
    exec (.flagOf raw widths) s =
      if 63 < widths.sum then .refused .layoutTooWide
      else .next { s with result := .flag (raw.toNat / 2 ^ widths.sum % 2 = 1) }

/-- R122, first sentence. Unpacking a packed word gives for every lane what DECODE answers for what ENCODE answered, and
FLAGOF gives the flag back. -/
def Obligations.UnpackAfterPack : Prop :=
  ∀ (lanes : List Lane) (flag : Bool) (s : State), LayoutValid (lanes.map Lane.width) →
    (∀ l ∈ lanes, EncodeDomain l.value l.frac) →
    ∃ (r : Word64) (rs : List Word64), exec (.pack lanes flag) s = .next { s with result := .u64 r } ∧
      exec (.unpack r (lanes.map Lane.width)) s = .next { s with result := .i64s rs } ∧
      exec (.flagOf r (lanes.map Lane.width)) s = .next { s with result := .flag flag } ∧
      ∀ (i : Nat) (l : Lane), lanes[i]? = some l → ∃ e d : Word64, rs[i]? = some d ∧
        exec (.encode l.value l.width l.frac) s = .next { s with result := .u64 e } ∧
        exec (.decode e l.width) s = .next { s with result := .i64 d }

/-- R122, second sentence. Packing again the integers UNPACK returned, each given as a binary64 value with no fractional
bits, with the flag FLAGOF returned, gives the word back. -/
def Obligations.PackAfterUnpack : Prop :=
  ∀ (raw : Word64) (lanes : List Lane) (rs : List Word64) (b : Bool) (s : State),
    LayoutValid (lanes.map Lane.width) → raw.toNat < 2 ^ ((lanes.map Lane.width).sum + 1) →
    exec (.unpack raw (lanes.map Lane.width)) s = .next { s with result := .i64s rs } →
    exec (.flagOf raw (lanes.map Lane.width)) s = .next { s with result := .flag b } →
    (∀ (i : Nat) (l : Lane), lanes[i]? = some l → l.frac = 0 ∧ l.value.finite = true ∧
      ∃ d : Word64, rs[i]? = some d ∧ ratValue l.value = d.toInt) →
    exec (.pack lanes b) s = .next { s with result := .u64 raw }

/-- R21. What a codec operation answers depends on its operands alone, and of the state it changes only the result. -/
def Obligations.CodecIsFunctionOfOperands : Prop :=
  ∀ (i : Instr) (s t : State), Codec i → exec i s = .next t →
    t = { s with result := t.result } ∧ ∀ s' : State, exec i s' = .next { s' with result := t.result }

/-! ### The BeatFramer (spec/41_beatframer.md) -/

/-- R140, with the byte places of R50 and R84. A length that is no multiple of 8 is reported and produces no beat.
Otherwise there are `L / 8` beats, byte `k` of group `g` in its place in beat `g`. That `SER_ACC` and `SER_CNT` are left
as the last group's 8 pushes leave them, and that nothing else changes, is the model's reading (DEDUCED,
notes/assumptions/28.md). -/
def Obligations.ToBeatsPlacesEveryByte : Prop :=
  ∀ (payload : List Byte) (s : State), s.cfg.bytesPerBeat = 8 →
    (payload.length % 8 ≠ 0 →
      exec (.toBeats payload) s = .next { s with result := .shapeError payload.length }) ∧
    (payload.length % 8 = 0 → ∃ beats : List Beat,
      exec (.toBeats payload) s = .next { s with
        serAcc := beats.getLast?.getD s.serAcc, serCnt := if beats = [] then s.serCnt else 8,
        result := .beats beats } ∧
      beats.length = payload.length / 8 ∧
      ∀ (g k : Nat) (beat : Beat), beats[g]? = some beat → k < 8 →
        payload[8 * g + k]? = some (beat.extractLsb' (8 * bytePlace s.cfg.serOrder k) 8))

/-- R142, a step within a group: SER.PUSH from a `SER_CNT` below 8. -/
def Obligations.SerPushShiftsByteIn : Prop :=
  ∀ (b : Byte) (s : State), s.cfg.bytesPerBeat = 8 → s.serCnt < 8 →
    exec (.serPush b) s = .next { s with
      serAcc := match s.cfg.serOrder with
        | .lsbFirst => (s.serAcc >>> 8) ||| (b.setWidth 64 <<< 56)
        | .msbFirst => (s.serAcc <<< 8) ||| b.setWidth 64,
      serCnt := s.serCnt + 1, result := .done }

/-- The model's reading of R38 and R142 (notes/assumptions/9.md, DEDUCED): a push on a complete beat begins the next
group, from `SER_ACC = 0` and `SER_CNT = 0`. -/
def Obligations.SerPushOnCompleteBeatBeginsGroup : Prop :=
  ∀ (b : Byte) (s : State), s.cfg.bytesPerBeat = 8 → 8 ≤ s.serCnt →
    exec (.serPush b) s = exec (.serPush b) { s with serAcc := 0, serCnt := 0 } ∧
    ∃ t, exec (.serPush b) s = .next t ∧ t.serCnt = 1

/-- R143, and the expansion of TOBEATS in R97: eight pushes, from whatever `SER_ACC` the group starts with, leave the
beat TOBEATS answers for the eight bytes. What TOBEATS leaves in `SER_ACC` and `SER_CNT` is the model's reading (DEDUCED,
notes/assumptions/28.md). -/
def Obligations.BeatIndependentOfStartingAccumulator : Prop :=
  ∀ (bytes : List Byte) (acc : Word64) (s : State), s.cfg.bytesPerBeat = 8 → s.serCnt = 0 → bytes.length = 8 →
    ∃ beat : Beat,
      execAll (bytes.map .serPush) { s with serAcc := acc } =
        .next { s with serAcc := beat, serCnt := 8, result := .done } ∧
      exec (.toBeats bytes) s = .next { s with serAcc := beat, serCnt := 8, result := .beats [beat] }

/-- R145, with the byte places of R51 and R150. Every sequence of beats is accepted; there are 8 bytes a beat, in
extraction order. That `DES_SHR` is 0 and `DES_CNT` 8 after the call, all of the last beat being shifted out, is the
model's reading (DEDUCED, notes/assumptions/28.md). -/
def Obligations.FromBeatsEmitsEveryByte : Prop :=
  ∀ (beats : List Beat) (s : State), s.cfg.bytesPerBeat = 8 → ∃ payload : List Byte,
    exec (.fromBeats beats) s = .next { s with
      desShr := if beats = [] then s.desShr else 0, desCnt := if beats = [] then s.desCnt else 8,
      result := .bytes payload } ∧
    payload.length = 8 * beats.length ∧
    ∀ (g k : Nat) (beat : Beat), beats[g]? = some beat → k < 8 →
      payload[8 * g + k]? = some (beat.extractLsb' (8 * bytePlace s.cfg.desOrder k) 8)

/-- R146, a step within a beat: DES.POP from a `DES_CNT` below 8. -/
def Obligations.DesPopShiftsByteOut : Prop :=
  ∀ (s : State), s.cfg.bytesPerBeat = 8 → s.desCnt < 8 →
    exec .desPop s = match s.cfg.desOrder with
      | .lsbFirst => .next { s with
          desShr := s.desShr >>> 8, desCnt := s.desCnt + 1, result := .u8 (s.desShr.extractLsb' 0 8) }
      | .msbFirst => .next { s with
          desShr := s.desShr <<< 8, desCnt := s.desCnt + 1, result := .u8 (s.desShr.extractLsb' 56 8) }

/-- The model's reading of R146 (notes/assumptions/10.md, DESIGN CHOICE): a pop after the last byte of a beat begins a
beat nothing is known of. -/
def Obligations.DesPopBeyondBeatIsOpen : Prop :=
  ∀ (s : State), s.cfg.bytesPerBeat = 8 → 8 ≤ s.desCnt → ∃ (shr : Word64) (b : Byte),
    exec .desPop s = .next { s with desShr := shr, desCnt := 1, draws := s.draws + 1, result := .u8 b }

/-- R146, corner cases, and the expansion of FROMBEATS in R97: eight pops empty the shift register whatever the beat
was, and the last returns the last byte FROMBEATS answers for the beat. What FROMBEATS leaves in `DES_SHR` and `DES_CNT`
is the model's reading (DEDUCED, notes/assumptions/28.md). -/
def Obligations.EightPopsEmptyTheBeat : Prop :=
  ∀ (beat : Beat) (s : State), s.cfg.bytesPerBeat = 8 → ∃ (b : Byte) (payload : List Byte),
    execAll (List.replicate 8 .desPop) { s with desShr := beat, desCnt := 0 } =
      .next { s with desShr := 0, desCnt := 8, result := .u8 b } ∧
    exec (.fromBeats [beat]) s = .next { s with desShr := 0, desCnt := 8, result := .bytes payload } ∧
    payload.getLast? = some b

/-- R148. With one byte order, framing a payload and unframing the beats gives the payload, and the other way round. -/
def Obligations.FramingRoundTrips : Prop :=
  ∀ (s : State), s.cfg.bytesPerBeat = 8 → s.cfg.serOrder = s.cfg.desOrder →
    (∀ p : List Byte, p.length % 8 = 0 → ∃ (beats : List Beat) (t u : State),
      exec (.toBeats p) s = .next t ∧ t.result = .beats beats ∧
      exec (.fromBeats beats) t = .next u ∧ u.result = .bytes p) ∧
    (∀ beats : List Beat, ∃ (p : List Byte) (t u : State),
      exec (.fromBeats beats) s = .next t ∧ t.result = .bytes p ∧
      exec (.toBeats p) t = .next u ∧ u.result = .beats beats)

/-- R149. With different byte orders every group of 8 bytes comes back reversed, the groups in order. -/
def Obligations.MixedOrdersReverseGroups : Prop :=
  ∀ (s : State) (p : List Byte), s.cfg.bytesPerBeat = 8 → s.cfg.serOrder ≠ s.cfg.desOrder → p.length % 8 = 0 →
    ∃ (beats : List Beat) (t u : State) (q : List Byte),
      exec (.toBeats p) s = .next t ∧ t.result = .beats beats ∧
      exec (.fromBeats beats) t = .next u ∧ u.result = .bytes q ∧ q.length = p.length ∧
      ∀ g k : Nat, 8 * g + 8 ≤ p.length → k < 8 → q[8 * g + k]? = p[8 * g + 7 - k]?

/-- R213 `BadBytesPerBeat` (R141): with any other beat size the serializer and the deserializer are refused, and so is a
session, which uses both. -/
def Obligations.OtherBeatSizesRefused : Prop :=
  ∀ (s : State) (payload : List Byte) (beats : List Beat) (b : Byte) (h : Header), s.cfg.bytesPerBeat ≠ 8 →
    exec (.toBeats payload) s = .refused .badBytesPerBeat ∧ exec (.serPush b) s = .refused .badBytesPerBeat ∧
    exec (.fromBeats beats) s = .refused .badBytesPerBeat ∧ exec .desPop s = .refused .badBytesPerBeat ∧
    (s.hostFree = true → exec (.sessionRun h payload) s = .refused .badBytesPerBeat)

/-! ### Registers (spec/42_header_regs.md) -/

/-- R170 with the table of R56: what REG.WR32 and REG.WR64 write, address by address, in a valid configuration and
outside a transfer; an address of no block, and an ENABLE write of another value than 1, is refused (R57, R176). The
transfer a start begins (`inTransfer`) is the model's field (notes/assumptions/12.md), that `ENABLE` then holds 1 its
choice (notes/assumptions/19.md); a push on a full queue has no step (R174), the model's fault `writeQueueFull`
(notes/assumptions/11.md). -/
def Obligations.RegisterWritesReachTheirRegister : Prop :=
  ∀ (s : State) (addr : Nat) (v : Word32) (b : Word64), ConfigValid s.cfg → HostMayAccess s →
    (∀ f : HField, addr = s.cfg.hdrBase + f.inOffset →
      exec (.regWr32 addr v) s = .next { s with hdrIn := s.hdrIn.set f v, result := .done }) ∧
    (addr = s.cfg.enableAddr → s.cfg.ctrlWidth = .w32 → exec (.regWr32 addr v) s =
      if v = 1 then .next { s with enable := 1, processing := true, inTransfer := true, result := .done }
      else .refused .unmappedAccess) ∧
    ((∀ c ∈ s.blocks, (∀ f : HField, addr ≠ c.cfg.hdrBase + f.inOffset) ∧
        ¬(addr = c.cfg.enableAddr ∧ c.cfg.ctrlWidth = .w32)) →
      exec (.regWr32 addr v) s = .refused .unmappedAccess) ∧
    (addr = s.cfg.wqAddr → exec (.regWr64 addr b) s =
      if s.wqFull then .fault .writeQueueFull else .next { s with wq := s.wq ++ [b], result := .done }) ∧
    (addr = s.cfg.enableAddr → s.cfg.ctrlWidth = .w64 → exec (.regWr64 addr b) s =
      if b = 1 then .next { s with enable := 1, processing := true, inTransfer := true, result := .done }
      else .refused .unmappedAccess) ∧
    ((∀ c ∈ s.blocks, addr ≠ c.cfg.wqAddr ∧ ¬(addr = c.cfg.enableAddr ∧ c.cfg.ctrlWidth = .w64)) →
      exec (.regWr64 addr b) s = .refused .unmappedAccess)

/-- R171 with the table of R56, on hardware: what REG.RD32 and REG.RD64 read, address by address, in a valid
configuration; an address of no block is refused, an input offset among them (R57, R179). A read of a queue with a beat
removes that beat. That a read of a header or count register leaves it as it is, is the model's choice (R60 does not
state it; notes/assumptions/4.md); that a non-zero value read in the poll register ends a transfer likewise
(notes/assumptions/12.md). -/
def Obligations.RegisterReadsReachTheirRegister : Prop :=
  ∀ (s : State) (addr : Nat), ConfigValid s.cfg → s.hostFree = true → s.cfg.transport = .hardware →
    (∀ f : HField, addr = s.cfg.hdrBase + f.outOffset →
      exec (.regRd32 addr) s = .next { (if f = .beatCount ∧ s.cfg.pollAt = .hdrOut0 ∧ s.hdrOut.beatCount ≠ 0
        then s.transferOver else s) with result := .u32 (s.hdrOut.get f) }) ∧
    (addr = s.cfg.rcountAddr → s.cfg.pollAt = .rcount → s.cfg.ctrlWidth = .w32 →
      exec (.regRd32 addr) s = .next { (if s.rcount ≠ 0 then s.transferOver else s) with
        result := .u32 (s.rcount.setWidth 32) }) ∧
    ((∀ c ∈ s.blocks, (∀ f : HField, addr ≠ c.cfg.hdrBase + f.outOffset) ∧
        ¬(addr = c.cfg.rcountAddr ∧ c.cfg.pollAt = .rcount ∧ c.cfg.ctrlWidth = .w32)) →
      exec (.regRd32 addr) s = .refused .unmappedAccess) ∧
    (∀ b rest, addr = s.cfg.rqAddr → s.rq = b :: rest →
      exec (.regRd64 addr) s = .next { s with rq := rest, result := .u64 b }) ∧
    (addr = s.cfg.rqAddr → s.rq = [] →
      ∃ b : Beat, exec (.regRd64 addr) s = .next { s with draws := s.draws + 1, result := .u64 b }) ∧
    (addr = s.cfg.rcountAddr → s.cfg.pollAt = .rcount → s.cfg.ctrlWidth = .w64 →
      exec (.regRd64 addr) s = .next { (if s.rcount ≠ 0 then s.transferOver else s) with
        result := .u64 s.rcount }) ∧
    ((∀ c ∈ s.blocks, addr ≠ c.cfg.rqAddr ∧
        ¬(addr = c.cfg.rcountAddr ∧ c.cfg.pollAt = .rcount ∧ c.cfg.ctrlWidth = .w64)) →
      exec (.regRd64 addr) s = .refused .unmappedAccess)

/-- R220, R170, R171: the register space is one, and an access goes to the block that has the address: on a platform
whose blocks share no address, an access at an address of another block is that access made with the other block at hand,
every block in its place after it. How a state holds several blocks is the model's choice (notes/assumptions/24.md). -/
def Obligations.AccessReachesTheBlockOfItsAddress : Prop :=
  ∀ (s : State) (j : Nat) (b : Block) (addr : Nat) (v : Word32) (d : Word64), PlatformValid s →
    s.others[j]? = some b → addr ∈ b.cfg.addresses →
    ∀ i ∈ [Instr.regWr32 addr v, .regWr64 addr d, .regRd32 addr, .regRd64 addr],
      exec i s = onNext (exec i (s.swap j)) fun t => .next (t.swap j)

/-- R172. HDR.WRITE is the seven 32-bit writes at the input offsets, in field order, and sets all seven registers,
whatever the values. -/
def Obligations.HeaderWriteIsSevenWrites : Prop :=
  ∀ (h : Header) (s : State), HostMayAccess s →
    exec (.hdrWrite h) s = .next { s with hdrIn := h, result := .done } ∧
    execAll (HField.all.map fun f => .regWr32 (s.cfg.hdrBase + f.inOffset) (h.get f)) s =
      .next { s with hdrIn := h, result := .done }

/-- R173 on hardware: HDR.READ returns the seven output registers in field order, each what REG.RD32 returns at its
output offset. That the seven come from one moment is the model's choice (notes/assumptions/14.md), that the reads leave
the registers as they are too (notes/assumptions/4.md), and that a non-zero value read in the poll register ends a
transfer (notes/assumptions/12.md). -/
def Obligations.HeaderReadIsSevenReads : Prop :=
  ∀ (s : State), s.hostFree = true → s.cfg.transport = .hardware →
    exec .hdrRead s = .next { (if s.cfg.pollAt = .hdrOut0 ∧ s.hdrOut.beatCount ≠ 0 then s.transferOver else s) with
      result := .header s.hdrOut } ∧
    ∀ f : HField, ∃ t, exec (.regRd32 (s.cfg.hdrBase + f.outOffset)) s = .next t ∧
      t.result = .u32 (s.hdrOut.get f)

/-- R180. Under `MIRROR_MOCK` every output register reads as the input register of its field at all times, so HDR.READ
returns the input registers, and after HDR.WRITE the header written, for every header. -/
def Obligations.MirrorReturnsTheHeader : Prop :=
  ∀ (h : Header) (s : State), s.hostFree = true → s.cfg.transport = .mirror →
    (∃ u, exec .hdrRead s = .next u ∧ u.result = .header s.hdrIn) ∧
    (∀ f : HField, ∃ u, exec (.regRd32 (s.cfg.hdrBase + f.outOffset)) s = .next u ∧
      u.result = .u32 (s.hdrIn.get f)) ∧
    (s.inTransfer = false →
      ∃ t u, exec (.hdrWrite h) s = .next t ∧ exec .hdrRead t = .next u ∧ u.result = .header h)

/-- R174. WQ.PUSH is REG.WR64 at `WQ_ADDR`; it appends the beat, and on a full queue there is no step (the model's
fault for the stuck host, notes/assumptions/11.md). -/
def Obligations.PushAppendsToWriteQueue : Prop :=
  ∀ (b : Beat) (s : State), HostMayAccess s →
    exec (.wqPush b) s = exec (.regWr64 s.cfg.wqAddr b) s ∧
    ((∀ d, s.cfg.queueDepth = some d → s.wq.length < d) →
      exec (.wqPush b) s = .next { s with wq := s.wq ++ [b], result := .done }) ∧
    (∀ d, s.cfg.queueDepth = some d → d ≤ s.wq.length → exec (.wqPush b) s = .fault .writeQueueFull)

/-- R175. RQ.POP is REG.RD64 at `RQ_ADDR`; it returns the head and removes it; from an empty queue it returns a value
nothing is known of and the queue stays empty. -/
def Obligations.PopTakesHeadOfReadQueue : Prop :=
  ∀ (s : State), s.hostFree = true →
    exec .rqPop s = exec (.regRd64 s.cfg.rqAddr) s ∧
    (∀ b rest, s.rq = b :: rest → exec .rqPop s = .next { s with rq := rest, result := .u64 b }) ∧
    (s.rq = [] → ∃ b : Beat, exec .rqPop s = .next { s with draws := s.draws + 1, result := .u64 b })

/-- R67. Beats are appended to `WQ` in the order written, and the k-th pop of `RQ` returns its k-th beat. -/
def Obligations.QueuesAreFirstInFirstOut : Prop :=
  (∀ (bs : List Beat) (s : State), HostMayAccess s → s.cfg.queueDepth = none →
    ∃ t, execAll (bs.map .wqPush) s = .next t ∧ t.wq = s.wq ++ bs) ∧
  (∀ (before after : List Beat) (b : Beat) (s : State), s.hostFree = true → s.rq = before ++ b :: after →
    execAll (List.replicate (before.length + 1) .rqPop) s = .next { s with rq := after, result := .u64 b })

/-- R176. EN.START writes 1 to `ENABLE` and starts the pipeline; it is the write of 1 at `ENABLE_ADDR` by the operation
of that register's width. The transfer it begins (`inTransfer`) is the model's field (notes/assumptions/12.md), and that
`ENABLE` then holds 1 is its choice (R176 fixes no effect on the state; notes/assumptions/19.md). -/
def Obligations.StartWritesOneToEnable : Prop :=
  ∀ (s : State), ConfigValid s.cfg → HostMayAccess s →
    exec .enStart s = .next { s with enable := 1, processing := true, inTransfer := true, result := .done } ∧
    exec .enStart s = match s.cfg.ctrlWidth with
      | .w32 => exec (.regWr32 s.cfg.enableAddr 1) s
      | .w64 => exec (.regWr64 s.cfg.enableAddr 1) s

/-- R177 on hardware: POLL.READ returns the value of the register at `POLL_ADDR`. A non-zero value ends the transfer,
and the pipeline runs no longer (R221; where the transfer ends is notes/assumptions/12.md). That the register keeps its
value is the model's choice (R60 does not state it; notes/assumptions/4.md). -/
def Obligations.PollReturnsThePollRegister : Prop :=
  ∀ (s : State), s.hostFree = true → s.cfg.transport = .hardware →
    (s.cfg.pollAt = .rcount → exec .pollRead s =
      .next { (if s.rcount ≠ 0 then s.transferOver else s) with result := .count s.rcount.toNat }) ∧
    (s.cfg.pollAt = .hdrOut0 → exec .pollRead s =
      .next { (if s.hdrOut.beatCount ≠ 0 then s.transferOver else s) with
        result := .count s.hdrOut.beatCount.toNat })

/-- R233, R176, U16, as the model draws the line (notes/assumptions/12.md): between a start and its completion a header
write, a push, and another start are refused, by their own operations and by register writes. -/
def Obligations.TransferUnderWayRefusesWrites : Prop :=
  ∀ (s : State) (h : Header) (b : Beat) (v : Word32) (f : HField), s.hostFree = true → s.inTransfer = true →
    exec (.hdrWrite h) s = .refused .outOfOrder ∧ exec (.wqPush b) s = .refused .outOfOrder ∧
    exec .enStart s = .refused .outOfOrder ∧
    exec (.regWr32 (s.cfg.hdrBase + f.inOffset) v) s = .refused .outOfOrder ∧
    exec (.regWr64 s.cfg.wqAddr b) s = .refused .outOfOrder ∧
    (s.cfg.ctrlWidth = .w32 → exec (.regWr32 s.cfg.enableAddr 1) s = .refused .outOfOrder) ∧
    (s.cfg.ctrlWidth = .w64 → exec (.regWr64 s.cfg.enableAddr 1) s = .refused .outOfOrder)

/-- R213 `InterleavedSessions` (R66): while a session is running another session is refused, and so is every register
operation, which R213 does not say (DEDUCED, notes/assumptions/13.md). -/
def Obligations.RunningSessionKeepsRegisters : Prop :=
  ∀ (i : Instr) (s : State) (σ : Session), TouchesRegisters i → s.session = some σ → σ.ended = false →
    exec i s = .refused .interleavedSessions

/-! ### The TransferSession (spec/43_transfer_session.md) -/

/-- R190, its start: a well-shaped payload leaves the session in `Idle` with its beats framed and no register touched;
any other payload ends the run with `ShapeError` in `Idle`, no register touched (R201, R215). That SESSION.RUN itself goes
no further, the later steps making the run's accesses, and that an ended session stays, is the model's choice
(notes/assumptions/14.md). -/
def Obligations.SessionStartsIdleOrReportsShape : Prop :=
  ∀ (h : Header) (p : List Byte) (s : State), s.hostFree = true → s.cfg.bytesPerBeat = 8 →
    (p.length % 8 = 0 → ∃ (beats : List Beat) (t : State), exec (.toBeats p) s = .next t ∧ t.result = .beats beats ∧
      exec (.sessionRun h p) s = .next { t with
        session := some {
          state := .idle, ended := false, block := s.cfg.hdrBase, txHeader := h, txBeats := beats, toPush := beats,
          polls := 0, count := 0, readHeader := none, readBeats := [], rxHeader := none, rxBeats := [] },
        result := .pending }) ∧
    (p.length % 8 ≠ 0 → exec (.sessionRun h p) s = .next { s with
      session := some {
        state := .idle, ended := true, block := s.cfg.hdrBase, txHeader := h, txBeats := [], toPush := [],
        polls := 0, count := 0, readHeader := none, readBeats := [], rxHeader := none, rxBeats := [] },
      result := .shapeError p.length })

/-- R191. The first transition: the header is written and the session is in `HeaderSent`. That the header is one step is
the model's choice (notes/assumptions/14.md), the pipeline's turn before it too (notes/assumptions/4.md); while a
transfer is under way on the block the header is refused, as R233 has it and the model draws the line
(notes/assumptions/12.md). -/
def Obligations.SessionSendsHeader : Prop :=
  ∀ (s : State) (σ : Session), s.session = some σ → σ.ended = false → σ.state = .idle → σ.block = s.cfg.hdrBase →
    (s.inTransfer = false → step s = .next { s.pipelineTurn with
      hdrIn := σ.txHeader, session := some { σ with state := .headerSent } }) ∧
    (s.inTransfer = true → step s = .refused .outOfOrder)

/-- R192. The second transition: one push a step, in order, until no beat is left; then `PayloadSent`, which is a step of
its own (the model's choice, notes/assumptions/14.md). A full queue leaves no step (R174), the model's fault
(notes/assumptions/11.md). -/
def Obligations.SessionStreamsPayload : Prop :=
  ∀ (s : State) (σ : Session), s.session = some σ → σ.ended = false → σ.state = .headerSent →
    σ.block = s.cfg.hdrBase → s.inTransfer = false →
    (∀ b rest, σ.toPush = b :: rest → step s =
      if s.pipelineTurn.wqFull then .fault .writeQueueFull
      else .next { s.pipelineTurn with
        wq := s.pipelineTurn.wq ++ [b], session := some { σ with toPush := rest } }) ∧
    (σ.toPush = [] → step s = .next { s.pipelineTurn with session := some { σ with state := .payloadSent } })

/-- R193, and the advance to `Polling` of R190: the enable is written after the payload, then the session polls.
The transfer the enable begins (`inTransfer`) is the model's field (notes/assumptions/12.md), that `ENABLE` holds 1 its
choice (notes/assumptions/19.md), and so is that entering `Polling` is a step without an access
(notes/assumptions/14.md). -/
def Obligations.SessionEnablesThenPolls : Prop :=
  ∀ (s : State) (σ : Session), s.session = some σ → σ.ended = false → σ.block = s.cfg.hdrBase →
    (σ.state = .payloadSent → s.inTransfer = false → step s = .next { s.pipelineTurn with
      enable := 1, processing := true, inTransfer := true, session := some { σ with state := .enabled } }) ∧
    (σ.state = .enabled → step s = .next { s.pipelineTurn with session := some { σ with state := .polling } })

/-- R194, R200. One poll a step: a non-zero value leaves the loop; a zero goes round again, unless the poll limit is
reached, which ends the session in `Polling` with `Timeout` and the number of polls. Both ends of the loop end the
transfer in the model (notes/assumptions/12.md), the non-zero value also the pipeline's run (R221), after which
the loopback mock alone counts anew (notes/assumptions/33.md). -/
def Obligations.SessionPollsUntilNonZeroOrLimit : Prop :=
  ∀ (s : State) (σ : Session), s.session = some σ → σ.ended = false → σ.state = .polling → σ.count = 0 →
    σ.block = s.cfg.hdrBase →
    let t := s.pipelineTurn
    (t.pollValue ≠ 0 → step s = .next { t.transferOver with
      pipe := t.pipeAfterTransfer, session := some { σ with polls := σ.polls + 1, count := t.pollValue } }) ∧
    (t.pollValue = 0 → (∀ k, s.cfg.pollLimit = some k → σ.polls + 1 < k) → step s = .next { t with
      session := some { σ with polls := σ.polls + 1 } }) ∧
    (t.pollValue = 0 → ∀ k, s.cfg.pollLimit = some k → k ≤ σ.polls + 1 → step s = .next { t with
      inTransfer := false, session := some { σ with polls := σ.polls + 1, ended := true },
      result := .timeout (σ.polls + 1) })

/-- R195 on hardware: after the poll returned `n` the session reads the header, then `n` beats, one pop a step and in
order, then hands back the header and the bytes FROMBEATS answers for the beats, and is `Completed`, with which `rxHeader`
and `rxBeats` are filled (R38). That the header and the last transition are one step each is the model's choice
(notes/assumptions/14.md); so are what a non-zero value in the poll register ends (notes/assumptions/12.md) and what
FROMBEATS leaves in its working state (notes/assumptions/28.md). -/
def Obligations.SessionReceivesHeaderThenBeats : Prop :=
  ∀ (s : State) (σ : Session), s.session = some σ → σ.ended = false → σ.state = .polling → σ.count ≠ 0 →
    σ.block = s.cfg.hdrBase → s.cfg.transport = .hardware → s.cfg.bytesPerBeat = 8 →
    let t := s.pipelineTurn
    (σ.readHeader = none → step s =
      .next { (if s.cfg.pollAt = .hdrOut0 ∧ t.hdrOut.beatCount ≠ 0 then t.transferOver else t) with
        session := some { σ with readHeader := some t.hdrOut } }) ∧
    (∀ h b rest, σ.readHeader = some h → σ.readBeats.length < σ.count → t.rq = b :: rest →
      step s = .next { t with rq := rest, session := some { σ with readBeats := σ.readBeats ++ [b] } }) ∧
    (∀ h, σ.readHeader = some h → σ.readBeats.length < σ.count → t.rq = [] → ∃ b : Beat,
      step s = .next { t with
        draws := s.draws + 1, session := some { σ with readBeats := σ.readBeats ++ [b] } }) ∧
    (∀ h, σ.readHeader = some h → σ.count ≤ σ.readBeats.length → ∃ (p : List Byte) (u : State),
      exec (.fromBeats σ.readBeats) t = .next u ∧ u.result = .bytes p ∧
      step s = .next { u with
        session := some { σ with
          state := .completed, ended := true, rxHeader := some h, rxBeats := σ.readBeats },
        result := .transfer h p })

/-- R190: a running session moves from its state to the same or the next one, never back and never over one, on the block
it was made for; it reaches `Completed` only from `Polling` after a non-zero count, and the count is what it read in the
poll register of its block. -/
def Obligations.SessionStatesInOrder : Prop :=
  ∀ (s t : State) (σ : Session), s.Inv → s.session = some σ → σ.ended = false → step s = .next t →
    ∃ σ', t.session = some σ' ∧ σ.state.follows σ'.state ∧ σ'.block = σ.block ∧ σ'.txHeader = σ.txHeader ∧
      σ'.txBeats = σ.txBeats ∧ (σ'.state = .completed → σ.count ≠ 0 ∧ σ'.count = σ.count) ∧
      (σ'.count ≠ σ.count → ∃ b ∈ s.pipelineTurn.blocks, b.cfg.hdrBase = σ.block ∧
        σ'.count = { s.pipelineTurn with toBlock := b }.pollValue)

/-- R234, for every transport: while the poll register is found 0 a session with no poll limit stays in `Polling`, however
many steps it takes, and hands nothing back: an infinite run, if it is never found otherwise. Before the mock of P5
(`silent`, notes/assumptions/20.md) it never is. -/
def Obligations.SilentPipelineHangsSession : Prop :=
  ∀ (k : Nat) (s : State) (σ : Session), s.cfg.pollLimit = none →
    s.session = some σ → σ.ended = false → σ.state = .polling → σ.count = 0 → σ.block = s.cfg.hdrBase →
    ((∀ j t, j < k → Host.Core.run core j s = .next t → t.pipelineTurn.pollValue = 0) →
      ∃ t, Host.Core.run core k s = .next t ∧ t.session = some { σ with polls := σ.polls + k } ∧
        t.result = s.result ∧ t.calls = s.calls) ∧
    (s.cfg.transport = .silent → ∀ j t, Host.Core.run core j s = .next t → t.pipelineTurn.pollValue = 0)

/-- R244, R234: under `PipelineCompletes` a session in `Polling` with no poll limit comes to read a non-zero count. -/
def Obligations.CompletingPipelineEndsThePoll : Prop :=
  ∀ (s : State) (σ : Session), s.session = some σ → σ.ended = false → σ.state = .polling → σ.count = 0 →
    σ.block = s.cfg.hdrBase → s.cfg.pollLimit = none → PipelineCompletes s →
    ∃ k t σ', Host.Core.run core k s = .next t ∧ t.session = some σ' ∧ σ'.state = .polling ∧ σ'.count ≠ 0

/-- R200 (and S7), before the mock of P5 (`silent`, notes/assumptions/20.md). With `POLL_LIMIT = k`, a session that enters
`Polling` and reads only zeros reports `Timeout` with `k` polls after `k` reads; it has touched nothing else of its block,
but that the transfer is over in the model (notes/assumptions/12.md), and is not `Completed`. -/
def Obligations.SilentPipelineTimesOut : Prop :=
  ∀ (k : Nat) (s : State) (σ : Session), s.cfg.transport = .silent → s.cfg.pollLimit = some k → 0 < k →
    s.session = some σ → σ.ended = false → σ.state = .polling → σ.count = 0 → σ.polls = 0 →
    σ.block = s.cfg.hdrBase →
    ∃ t, Host.Core.run core k s = .next t ∧ t.toBlock = { s.toBlock with inTransfer := false } ∧
      t.session = some { σ with polls := k, ended := true } ∧ t.result = .timeout k ∧ t.calls = s.calls

/-- R197. VALIDATE answers the ascending list of the positions at which the payloads differ, a position beyond the
shorter one among them (D30), their number, and whether there is none, which holds exactly when the payloads are equal.
A session that has ended is discarded (R35). -/
def Obligations.ValidateListsMismatches : Prop :=
  ∀ (rx ex : List Byte) (s : State), ∃ (pass : Bool) (found : List Nat),
    exec (.validate rx ex) s = .next { s with
      session := s.session.filter (fun σ => !σ.ended), result := .comparison pass found.length found } ∧
    found.Pairwise (· < ·) ∧
    (∀ i, i ∈ found ↔ i < max rx.length ex.length ∧
      (rx.length ≤ i ∨ ex.length ≤ i ∨ rx[i]? ≠ ex[i]?)) ∧
    (pass = true ↔ found.length = 0) ∧ (pass = true ↔ rx = ex)

/-- R190 to R195 with R140, R145, R148 and R180, under the loopback mock of D32 (notes/assumptions/20.md, 33.md): from a
clean entry a session with one byte order returns the header and the payload it was given, in as many steps as the model
makes accesses and transitions (notes/assumptions/14.md), and leaves the block to the next session as it found it. The
mock counts from `pipe = 0` (notes/assumptions/30.md). -/
def Obligations.LoopbackSessionReturnsItsPayload : Prop :=
  ∀ (s : State) (h : Header) (p : List Byte) (rest : List Call),
    s.cfg.transport = .loopback → s.cfg.pollAt = .rcount → s.cfg.bytesPerBeat = 8 → s.cfg.queueDepth = none →
    s.cfg.serOrder = s.cfg.desOrder → CleanEntry s → s.pipe = 0 → HostMayAccess s →
    s.calls = ⟨s.cfg.hdrBase, .sessionRun h p⟩ :: rest → p.length % 8 = 0 → 0 < p.length →
    p.length / 8 < 2 ^ 32 →
    ∃ t σ, Host.Core.run core (2 * (p.length / 8) + 8) s = .next t ∧ t.session = some σ ∧ σ.state = .completed ∧
      σ.ended = true ∧ σ.rxHeader = some h ∧ σ.txBeats = σ.rxBeats ∧ t.result = .transfer h p ∧ t.hdrIn = h ∧
      t.calls = rest ∧ CleanEntry t ∧ t.pipe = 0 ∧ HostMayAccess t

/-! ### The whole machine -/

/-- R38, R230: what the spec gives for reset: the queues empty, the poll register 0, the pipeline not processing, the
serializer's and deserializer's counts and accumulator 0, no session. That no transfer is under way and that the
configuration is valid is the model's choice (notes/assumptions/12.md, 3.md). -/
def Obligations.ResetIsCleanEntry : Prop :=
  CleanEntry State.reset ∧ State.reset.serAcc = 0 ∧ State.reset.serCnt = 0 ∧ State.reset.desCnt = 0 ∧
    State.reset.session = none ∧ State.reset.inTransfer = false ∧ ConfigValid State.reset.cfg

/-- The state after reset meets the invariant. -/
def Obligations.ResetMeetsInvariant : Prop := State.reset.Inv

/-- Every step keeps the invariant: the byte counts in 0..8 (R32, R33); on every block the control registers in their width
(R28, R31), the write queue in its depth (R29, R174), the pipeline running while a transfer is under way (R221); the
session as R190 to R201 let it be, with nothing received before `Completed` (R38). -/
def Obligations.StepKeepsInvariant : Prop := ∀ s t : State, s.Inv → step s = .next t → t.Inv

/-- R23. No operation writes the configuration: no step changes that of a block. -/
def Obligations.StepKeepsConfiguration : Prop :=
  ∀ s t : State, step s = .next t → t.blocks.map Block.cfg = s.blocks.map Block.cfg

/-- R36. The input header registers of a block keep the last values written: a step that changes one is the header
transition of a session on the block, an HDR.WRITE on it, or a REG.WR32 at an input offset of it, and writes what that
says. -/
def Obligations.HeaderInputsChangeOnlyWhenWritten : Prop :=
  ∀ (s t : State) (k : Nat) (b b' : Block), step s = .next t → s.blocks[k]? = some b → t.blocks[k]? = some b' →
    b'.hdrIn ≠ b.hdrIn →
    (∃ σ, s.session = some σ ∧ σ.ended = false ∧ σ.state = .idle ∧ σ.block = b.cfg.hdrBase ∧
      b'.hdrIn = σ.txHeader) ∨
    (s.hostFree = true ∧ ∃ c rest, s.calls = c :: rest ∧
      ((∃ h, c = ⟨b.cfg.hdrBase, .hdrWrite h⟩ ∧ b'.hdrIn = h) ∨
       (∃ f v, c.op = .regWr32 (b.cfg.hdrBase + f.inOffset) v ∧ b'.hdrIn = b.hdrIn.set f v)))

/-- R221, R38, R176: the pipeline of a block runs only between the start and the non-zero poll: at other times its turn
leaves the queues and `ENABLE` as they are, and before a first transfer is completed the poll register too (the model's
reading of "assumed not processing", DEDUCED, notes/assumptions/5.md). -/
def Obligations.PipelineWaitsForStart : Prop :=
  (∀ s : State, s.pipelineTurn.blocks = s.blocks.map Block.turn) ∧
  ∀ b : Block, b.processing = false → b.cfg.transport = .hardware →
    b.turn.wq = b.wq ∧ b.turn.rq = b.rq ∧ b.turn.enable = b.enable ∧
    (b.answered = false → b.cfg.pollAt = .rcount → b.turn.rcount = b.rcount) ∧
    (b.answered = false → b.cfg.pollAt = .hdrOut0 → b.turn.hdrOut.beatCount = b.hdrOut.beatCount)

/-- R25 to R31, R34: whatever the pipelines do, each reaches only its own registers: the host's registers, the codec's
working state, the session and the host's calls are as before their turn. -/
def Obligations.PipelineReachesOnlyItsRegisters : Prop :=
  ∀ s : State, ∃ (b : Block) (bs : List Block), s.pipelineTurn = { s with toBlock := b, others := bs } ∧
    s.toBlock.Moved b ∧ List.Forall₂ Block.Moved s.others bs

/-- The step of the model (R3, R20; the list of calls is notes/assumptions/1.md): when no session is running, the
pipeline's turn is followed by the host's next call, and without a call nothing else happens. The two refusals are the
model's: that a call made with the address parameters of no block is `unmappedAccess`, a codec call too (R57 says so of a
register access alone), is DESIGN CHOICE (notes/assumptions/24.md); that a call which is not well formed is `illFormed` is
DEDUCED (notes/assumptions/25.md). -/
def Obligations.StepInvokesTheNextCall : Prop :=
  ∀ s : State, s.hostFree = true →
    (s.calls = [] → step s = .next s.pipelineTurn) ∧
    (∀ i rest, s.calls = ⟨s.cfg.hdrBase, i⟩ :: rest → i.wellFormed = true →
      step s = exec i { s.pipelineTurn with calls := rest }) ∧
    (∀ c rest, s.calls = c :: rest → c.op.wellFormed = true → (∀ b ∈ s.blocks, b.cfg.hdrBase ≠ c.block) →
      step s = .refused .unmappedAccess) ∧
    (∀ c rest, s.calls = c :: rest → c.op.wellFormed = false → step s = .refused .illFormed)

/-- R198, R220: "each session takes its own set of address parameters". A step that belongs to another block, because the
running session or the next call was made with its parameters, is that step with the other block at hand, every block in
its place after it. How a state holds several blocks, and names one by its `HDR_BASE`, is the model's choice
(notes/assumptions/24.md). -/
def Obligations.StepOnAnotherBlock : Prop :=
  ∀ (s : State) (j : Nat) (b : Block), s.others[j]? = some b → s.cfg.hdrBase ≠ b.cfg.hdrBase →
    (∀ c ∈ s.others.take j, c.cfg.hdrBase ≠ b.cfg.hdrBase) →
    ((∃ σ, s.session = some σ ∧ σ.ended = false ∧ σ.block = b.cfg.hdrBase) ∨
      (s.hostFree = true ∧ ∃ i rest, s.calls = ⟨b.cfg.hdrBase, i⟩ :: rest)) →
    step s = onNext (step (s.swap j)) fun t => .next (t.swap j)

/-- The model's record form of a call (notes/assumptions/2.md): a record that decodes to a well-formed call, placed as
the next call, is the call the very next step makes, after the pipeline's turn. -/
def Obligations.StepRunsTheDecodedRecord : Prop :=
  ∀ (s : State) (nbits w : Nat) (i : Instr), decodeTableWord nbits w = some i → i.wellFormed = true →
    step (s.withFetchWord nbits w) =
      exec i { s.pipelineTurn with session := s.session.filter (fun σ => σ.ended), calls := s.calls }

/-- The model's record form of a call (notes/assumptions/2.md): the record of every well-formed call decodes to the
call, every operand at every value, with whatever bytes come after. -/
def Obligations.DecodingARecordGivesTheCall : Prop :=
  ∀ (i : Instr) (rest : List Byte), i.wellFormed = true → decodeCall (encodeCall i ++ rest) = .ok (i, rest)

/-- What is decoded is well formed (notes/assumptions/2.md; `F` is a `u8`, R110). -/
def Obligations.DecodedCallsAreWellFormed : Prop :=
  ∀ (bytes rest : List Byte) (i : Instr), decodeCall bytes = .ok (i, rest) → i.wellFormed = true

/-- A few records written out byte by byte from the form in Decode.lean (notes/assumptions/2.md), and bytes that are no
call. -/
def Obligations.SampleRecordsDecode : Prop :=
  decodeCall [2, 0xE0, 0, 0, 0, 0, 0, 0, 0, 8] = .ok (.decode 0xE0 8, []) ∧
  decodeCall [7, 0xAB, 9] = .ok (.serPush 0xAB, [9]) ∧
  decodeCall [10, 0x84, 0x20, 6, 0, 0, 0] = .ok (.regWr32 0x1004 6, []) ∧
  decodeCall [21, 1, 5, 2, 5, 6] = .ok (.validate [5] [5, 6], []) ∧
  decodeCall [0] = .error (.unknownOperation 0) ∧ decodeCall [22] = .error (.unknownOperation 22) ∧
  decodeCall [3, 0, 2] = .error (.badFlag 2) ∧ decodeCall [] = .error .truncated
end

