-- ==== Sys2Proof/Laws/Decode.lean ====
section
/-! SUPPORT. The readers of a record read back what the writers wrote, one law per kind of operand. -/

namespace Sys2Proof

@[simp] theorem Reader.give_apply {α : Type} (a : α) (bs : List Byte) : Reader.give a bs = .ok (a, bs) := rfl

/-- A reader that succeeds hands its value on. -/
theorem Reader.andThen_ok {α β : Type} {p : Reader α} {f : α → Reader β} {bs rest : List Byte} {a : α}
    (h : p bs = .ok (a, rest)) : p.andThen f bs = f a rest := by
  simp [Reader.andThen, h]

theorem readLE_writeLE (k n : Nat) (rest : List Byte) (h : n < 256 ^ k) :
    readLE k (writeLE k n ++ rest) = .ok (n, rest) := by
  induction k generalizing n with
  | zero => simp_all [readLE, writeLE]
  | succ k ih =>
    have hd : n / 256 < 256 ^ k := by rw [pow_succ] at h; omega
    simp only [writeLE, List.cons_append, readLE, ih _ hd, BitVec.toNat_ofNat]
    congr 2
    omega

theorem readNat_writeNatFuel (fuel n : Nat) (rest : List Byte) (h : n ≤ fuel) :
    readNat (writeNatFuel fuel n ++ rest) = .ok (n, rest) := by
  induction fuel generalizing n with
  | zero =>
    obtain rfl : n = 0 := by omega
    simp [writeNatFuel, readNat]
  | succ fuel ih =>
    unfold writeNatFuel
    split
    · next hlt =>
      have hb : n % 256 = n := by omega
      simp [readNat, hb, hlt]
    · next hge =>
      have hb : (n % 128 + 128) % 256 = n % 128 + 128 := by omega
      simp only [List.cons_append, readNat, BitVec.toNat_ofNat, ih (n / 128) (by omega)]
      norm_num [hb]
      omega

theorem readNat_writeNat (n : Nat) (rest : List Byte) : readNat (writeNat n ++ rest) = .ok (n, rest) :=
  readNat_writeNatFuel n n rest le_rfl

@[simp] theorem readByte_writeByte (b : Byte) (rest : List Byte) :
    readByte (writeByte b ++ rest) = .ok (b, rest) := rfl

theorem readU32_writeU32 (v : Word32) (rest : List Byte) : readU32 (writeU32 v ++ rest) = .ok (v, rest) := by
  rw [readU32, writeU32, Reader.andThen_ok (readLE_writeLE 4 v.toNat rest (by have := v.isLt; omega))]
  simp

theorem readU64_writeU64 (v : Word64) (rest : List Byte) : readU64 (writeU64 v ++ rest) = .ok (v, rest) := by
  rw [readU64, writeU64, Reader.andThen_ok (readLE_writeLE 8 v.toNat rest (by have := v.isLt; omega))]
  simp

theorem readFlag_writeFlag (f : Bool) (rest : List Byte) : readFlag (writeFlag f ++ rest) = .ok (f, rest) := by
  cases f <;> rfl

/-- A sequence reads back if its elements do. -/
theorem readMany_flatMap {α : Type} (p : Reader α) (w : α → List Byte) (as : List α) (rest : List Byte)
    (h : ∀ a ∈ as, ∀ r, p (w a ++ r) = .ok (a, r)) :
    readMany p as.length (as.flatMap w ++ rest) = .ok (as, rest) := by
  induction as with
  | nil => rfl
  | cons a as ih =>
    have ha : p (w a ++ (as.flatMap w ++ rest)) = .ok (a, as.flatMap w ++ rest) := h a (by simp) _
    have hi := ih fun b hb => h b (by simp [hb])
    simp only [List.length_cons, readMany, List.flatMap_cons, List.append_assoc]
    rw [Reader.andThen_ok ha, Reader.andThen_ok hi, Reader.give_apply]

theorem readList_writeList {α : Type} (p : Reader α) (w : α → List Byte) (as : List α) (rest : List Byte)
    (h : ∀ a ∈ as, ∀ r, p (w a ++ r) = .ok (a, r)) : readList p (writeList w as ++ rest) = .ok (as, rest) := by
  rw [readList, writeList, List.append_assoc, Reader.andThen_ok (readNat_writeNat as.length _)]
  exact readMany_flatMap p w as rest h

end Sys2Proof
end

