-- ==== Sys2Proof/Laws/Operands.lean ====
section
/-! SUPPORT. The exact arithmetic of ENCODE against the rationals of spec/40_fixedpoint.md R110: what an `f64` denotes,
scaled, and its truncation. -/

namespace Sys2Proof.Machine

/-- The magnitude, by shifts, is the exact quotient. -/
theorem magnitude_eq_quotient (m e : Nat) :
    (if 1075 ≤ e then m <<< (e - 1075) else m >>> (1075 - e)) = m * 2 ^ e / 2 ^ 1075 := by
  split
  · next h =>
    rw [Nat.shiftLeft_eq, ← Nat.sub_add_cancel h, Nat.add_sub_cancel, pow_add, ← mul_assoc]
    exact (Nat.mul_div_cancel _ (Nat.two_pow_pos 1075)).symm
  · next h =>
    rw [Nat.shiftRight_eq_div_pow, ← Nat.mul_div_mul_right m _ (Nat.two_pow_pos e), ← pow_add,
      Nat.sub_add_cancel (Nat.le_of_not_le h)]

/-- The rational a finite value denotes, times `2 ^ F`, as a signed quotient of integers. -/
theorem ratValue_scaled (v : F64) (f : Nat) :
    ratValue v * 2 ^ f =
      (if v.negative then -1 else 1) *
        (((v.significand * 2 ^ (v.scale + f) : Nat) : ℚ) / ((2 ^ 1075 : Nat) : ℚ)) := by
  unfold ratValue F64.significand F64.scale
  have h2 : (2 : ℚ) ≠ 0 := by norm_num
  rw [mul_assoc]
  congr 1
  split
  · rw [zpow_neg]
    push_cast
    rw [pow_add]
    field_simp
  · rw [zpow_sub₀ h2]
    push_cast
    rw [pow_add]
    field_simp
    rw [zpow_natCast]
    norm_num
    ring

/-- The integer ENCODE computes is `trunc(value * 2 ^ F)`. -/
theorem encodeTarget_eq_truncScaled (v : F64) (f : Nat) : encodeTarget v f = truncScaled v f := by
  unfold encodeTarget ratTrunc
  rw [ratValue_scaled]
  unfold truncScaled
  simp only [magnitude_eq_quotient]
  generalize v.significand * 2 ^ (v.scale + f) = n
  generalize 2 ^ 1075 = d
  have hq : (0 : ℚ) ≤ (n : ℚ) / (d : ℚ) := by positivity
  cases v.negative
  · simp only [Bool.false_eq_true, if_false, one_mul, if_pos hq]
    exact Rat.floor_natCast_div_natCast n d
  · simp only [if_true]
    split
    · next h =>
      have hz : (n : ℚ) / (d : ℚ) = 0 := by linarith
      have h1 := Rat.floor_natCast_div_natCast n d
      rw [hz] at h1
      have h0 : ((n / d : Nat) : ℤ) = 0 := by rw [Int.natCast_div, ← h1]; rfl
      rw [hz, Int.natCast_eq_zero.mp h0]
      simp
    · rw [neg_one_mul, Int.ceil_neg, Rat.floor_natCast_div_natCast]
      rfl

/-- The domain of ENCODE, decided. -/
theorem encodeDomain_iff (v : F64) (f : Nat) : EncodeDomain v f ↔ inEncodeDomain v f = true := by
  simp [EncodeDomain, inEncodeDomain, encodeTarget_eq_truncScaled, and_assoc]

end Sys2Proof.Machine
end

