-- ==== Sys2Proof/Laws/State.lean ====
section
/-! SUPPORT. One lemma per field per named update of the state, so that no proof unfolds a record update. -/

namespace Sys2Proof.Machine

variable (s : State)

@[simp] theorem Block.turn_cfg (b : Block) : b.turn.cfg = b.cfg := by
  unfold Block.turn Block.applyMove Block.loopBack
  dsimp only
  repeat' split
  all_goals rfl
@[simp] theorem Block.turn_hdrIn (b : Block) : b.turn.hdrIn = b.hdrIn := by
  unfold Block.turn Block.applyMove Block.loopBack
  dsimp only
  repeat' split
  all_goals rfl
@[simp] theorem Block.turn_processing (b : Block) : b.turn.processing = b.processing := by
  unfold Block.turn Block.applyMove Block.loopBack
  dsimp only
  repeat' split
  all_goals rfl
@[simp] theorem Block.turn_answered (b : Block) : b.turn.answered = b.answered := by
  unfold Block.turn Block.applyMove Block.loopBack
  dsimp only
  repeat' split
  all_goals rfl
@[simp] theorem Block.turn_inTransfer (b : Block) : b.turn.inTransfer = b.inTransfer := by
  unfold Block.turn Block.applyMove Block.loopBack
  dsimp only
  repeat' split
  all_goals rfl

/-! ### `State.finish` -/

@[simp] theorem State.finish_cfg (r : Result) : (s.finish r).cfg = s.cfg := rfl
@[simp] theorem State.finish_hdrIn (r : Result) : (s.finish r).hdrIn = s.hdrIn := rfl
@[simp] theorem State.finish_hdrOut (r : Result) : (s.finish r).hdrOut = s.hdrOut := rfl
@[simp] theorem State.finish_enable (r : Result) : (s.finish r).enable = s.enable := rfl
@[simp] theorem State.finish_wq (r : Result) : (s.finish r).wq = s.wq := rfl
@[simp] theorem State.finish_rq (r : Result) : (s.finish r).rq = s.rq := rfl
@[simp] theorem State.finish_wcount (r : Result) : (s.finish r).wcount = s.wcount := rfl
@[simp] theorem State.finish_rcount (r : Result) : (s.finish r).rcount = s.rcount := rfl
@[simp] theorem State.finish_processing (r : Result) : (s.finish r).processing = s.processing := rfl
@[simp] theorem State.finish_answered (r : Result) : (s.finish r).answered = s.answered := rfl
@[simp] theorem State.finish_pipe (r : Result) : (s.finish r).pipe = s.pipe := rfl
@[simp] theorem State.finish_inTransfer (r : Result) : (s.finish r).inTransfer = s.inTransfer := rfl
@[simp] theorem State.finish_others (r : Result) : (s.finish r).others = s.others := rfl
@[simp] theorem State.finish_serAcc (r : Result) : (s.finish r).serAcc = s.serAcc := rfl
@[simp] theorem State.finish_serCnt (r : Result) : (s.finish r).serCnt = s.serCnt := rfl
@[simp] theorem State.finish_desShr (r : Result) : (s.finish r).desShr = s.desShr := rfl
@[simp] theorem State.finish_desCnt (r : Result) : (s.finish r).desCnt = s.desCnt := rfl
@[simp] theorem State.finish_session (r : Result) : (s.finish r).session = s.session := rfl
@[simp] theorem State.finish_calls (r : Result) : (s.finish r).calls = s.calls := rfl
@[simp] theorem State.finish_result (r : Result) : (s.finish r).result = r := rfl
@[simp] theorem State.finish_draws (r : Result) : (s.finish r).draws = s.draws := rfl

/-! ### `State.setCalls` -/

@[simp] theorem State.setCalls_cfg (is : List Call) : (s.setCalls is).cfg = s.cfg := rfl
@[simp] theorem State.setCalls_hdrIn (is : List Call) : (s.setCalls is).hdrIn = s.hdrIn := rfl
@[simp] theorem State.setCalls_hdrOut (is : List Call) : (s.setCalls is).hdrOut = s.hdrOut := rfl
@[simp] theorem State.setCalls_enable (is : List Call) : (s.setCalls is).enable = s.enable := rfl
@[simp] theorem State.setCalls_wq (is : List Call) : (s.setCalls is).wq = s.wq := rfl
@[simp] theorem State.setCalls_rq (is : List Call) : (s.setCalls is).rq = s.rq := rfl
@[simp] theorem State.setCalls_wcount (is : List Call) : (s.setCalls is).wcount = s.wcount := rfl
@[simp] theorem State.setCalls_rcount (is : List Call) : (s.setCalls is).rcount = s.rcount := rfl
@[simp] theorem State.setCalls_processing (is : List Call) : (s.setCalls is).processing = s.processing := rfl
@[simp] theorem State.setCalls_answered (is : List Call) : (s.setCalls is).answered = s.answered := rfl
@[simp] theorem State.setCalls_pipe (is : List Call) : (s.setCalls is).pipe = s.pipe := rfl
@[simp] theorem State.setCalls_inTransfer (is : List Call) : (s.setCalls is).inTransfer = s.inTransfer := rfl
@[simp] theorem State.setCalls_others (is : List Call) : (s.setCalls is).others = s.others := rfl
@[simp] theorem State.setCalls_serAcc (is : List Call) : (s.setCalls is).serAcc = s.serAcc := rfl
@[simp] theorem State.setCalls_serCnt (is : List Call) : (s.setCalls is).serCnt = s.serCnt := rfl
@[simp] theorem State.setCalls_desShr (is : List Call) : (s.setCalls is).desShr = s.desShr := rfl
@[simp] theorem State.setCalls_desCnt (is : List Call) : (s.setCalls is).desCnt = s.desCnt := rfl
@[simp] theorem State.setCalls_session (is : List Call) : (s.setCalls is).session = s.session := rfl
@[simp] theorem State.setCalls_calls (is : List Call) : (s.setCalls is).calls = is := rfl
@[simp] theorem State.setCalls_result (is : List Call) : (s.setCalls is).result = s.result := rfl
@[simp] theorem State.setCalls_draws (is : List Call) : (s.setCalls is).draws = s.draws := rfl

/-! ### `State.setHdrIn` -/

@[simp] theorem State.setHdrIn_cfg (f : HField) (v : Word32) : (s.setHdrIn f v).cfg = s.cfg := rfl
@[simp] theorem State.setHdrIn_hdrIn (f : HField) (v : Word32) : (s.setHdrIn f v).hdrIn = s.hdrIn.set f v := rfl
@[simp] theorem State.setHdrIn_hdrOut (f : HField) (v : Word32) : (s.setHdrIn f v).hdrOut = s.hdrOut := rfl
@[simp] theorem State.setHdrIn_enable (f : HField) (v : Word32) : (s.setHdrIn f v).enable = s.enable := rfl
@[simp] theorem State.setHdrIn_wq (f : HField) (v : Word32) : (s.setHdrIn f v).wq = s.wq := rfl
@[simp] theorem State.setHdrIn_rq (f : HField) (v : Word32) : (s.setHdrIn f v).rq = s.rq := rfl
@[simp] theorem State.setHdrIn_wcount (f : HField) (v : Word32) : (s.setHdrIn f v).wcount = s.wcount := rfl
@[simp] theorem State.setHdrIn_rcount (f : HField) (v : Word32) : (s.setHdrIn f v).rcount = s.rcount := rfl
@[simp] theorem State.setHdrIn_processing (f : HField) (v : Word32) : (s.setHdrIn f v).processing = s.processing :=
  rfl
@[simp] theorem State.setHdrIn_answered (f : HField) (v : Word32) : (s.setHdrIn f v).answered = s.answered :=
  rfl
@[simp] theorem State.setHdrIn_pipe (f : HField) (v : Word32) : (s.setHdrIn f v).pipe = s.pipe := rfl
@[simp] theorem State.setHdrIn_inTransfer (f : HField) (v : Word32) : (s.setHdrIn f v).inTransfer = s.inTransfer :=
  rfl
@[simp] theorem State.setHdrIn_others (f : HField) (v : Word32) : (s.setHdrIn f v).others = s.others := rfl
@[simp] theorem State.setHdrIn_serAcc (f : HField) (v : Word32) : (s.setHdrIn f v).serAcc = s.serAcc := rfl
@[simp] theorem State.setHdrIn_serCnt (f : HField) (v : Word32) : (s.setHdrIn f v).serCnt = s.serCnt := rfl
@[simp] theorem State.setHdrIn_desShr (f : HField) (v : Word32) : (s.setHdrIn f v).desShr = s.desShr := rfl
@[simp] theorem State.setHdrIn_desCnt (f : HField) (v : Word32) : (s.setHdrIn f v).desCnt = s.desCnt := rfl
@[simp] theorem State.setHdrIn_session (f : HField) (v : Word32) : (s.setHdrIn f v).session = s.session := rfl
@[simp] theorem State.setHdrIn_calls (f : HField) (v : Word32) : (s.setHdrIn f v).calls = s.calls := rfl
@[simp] theorem State.setHdrIn_result (f : HField) (v : Word32) : (s.setHdrIn f v).result = s.result := rfl
@[simp] theorem State.setHdrIn_draws (f : HField) (v : Word32) : (s.setHdrIn f v).draws = s.draws := rfl

/-! ### `State.setHeader` -/

@[simp] theorem State.setHeader_cfg (h : Header) : (s.setHeader h).cfg = s.cfg := rfl
@[simp] theorem State.setHeader_hdrIn (h : Header) : (s.setHeader h).hdrIn = h := rfl
@[simp] theorem State.setHeader_hdrOut (h : Header) : (s.setHeader h).hdrOut = s.hdrOut := rfl
@[simp] theorem State.setHeader_enable (h : Header) : (s.setHeader h).enable = s.enable := rfl
@[simp] theorem State.setHeader_wq (h : Header) : (s.setHeader h).wq = s.wq := rfl
@[simp] theorem State.setHeader_rq (h : Header) : (s.setHeader h).rq = s.rq := rfl
@[simp] theorem State.setHeader_wcount (h : Header) : (s.setHeader h).wcount = s.wcount := rfl
@[simp] theorem State.setHeader_rcount (h : Header) : (s.setHeader h).rcount = s.rcount := rfl
@[simp] theorem State.setHeader_processing (h : Header) : (s.setHeader h).processing = s.processing := rfl
@[simp] theorem State.setHeader_answered (h : Header) : (s.setHeader h).answered = s.answered := rfl
@[simp] theorem State.setHeader_pipe (h : Header) : (s.setHeader h).pipe = s.pipe := rfl
@[simp] theorem State.setHeader_inTransfer (h : Header) : (s.setHeader h).inTransfer = s.inTransfer := rfl
@[simp] theorem State.setHeader_others (h : Header) : (s.setHeader h).others = s.others := rfl
@[simp] theorem State.setHeader_serAcc (h : Header) : (s.setHeader h).serAcc = s.serAcc := rfl
@[simp] theorem State.setHeader_serCnt (h : Header) : (s.setHeader h).serCnt = s.serCnt := rfl
@[simp] theorem State.setHeader_desShr (h : Header) : (s.setHeader h).desShr = s.desShr := rfl
@[simp] theorem State.setHeader_desCnt (h : Header) : (s.setHeader h).desCnt = s.desCnt := rfl
@[simp] theorem State.setHeader_session (h : Header) : (s.setHeader h).session = s.session := rfl
@[simp] theorem State.setHeader_calls (h : Header) : (s.setHeader h).calls = s.calls := rfl
@[simp] theorem State.setHeader_result (h : Header) : (s.setHeader h).result = s.result := rfl
@[simp] theorem State.setHeader_draws (h : Header) : (s.setHeader h).draws = s.draws := rfl

/-! ### `State.enqueue` -/

@[simp] theorem State.enqueue_cfg (b : Beat) : (s.enqueue b).cfg = s.cfg := rfl
@[simp] theorem State.enqueue_hdrIn (b : Beat) : (s.enqueue b).hdrIn = s.hdrIn := rfl
@[simp] theorem State.enqueue_hdrOut (b : Beat) : (s.enqueue b).hdrOut = s.hdrOut := rfl
@[simp] theorem State.enqueue_enable (b : Beat) : (s.enqueue b).enable = s.enable := rfl
@[simp] theorem State.enqueue_wq (b : Beat) : (s.enqueue b).wq = s.wq ++ [b] := rfl
@[simp] theorem State.enqueue_rq (b : Beat) : (s.enqueue b).rq = s.rq := rfl
@[simp] theorem State.enqueue_wcount (b : Beat) : (s.enqueue b).wcount = s.wcount := rfl
@[simp] theorem State.enqueue_rcount (b : Beat) : (s.enqueue b).rcount = s.rcount := rfl
@[simp] theorem State.enqueue_processing (b : Beat) : (s.enqueue b).processing = s.processing := rfl
@[simp] theorem State.enqueue_answered (b : Beat) : (s.enqueue b).answered = s.answered := rfl
@[simp] theorem State.enqueue_pipe (b : Beat) : (s.enqueue b).pipe = s.pipe := rfl
@[simp] theorem State.enqueue_inTransfer (b : Beat) : (s.enqueue b).inTransfer = s.inTransfer := rfl
@[simp] theorem State.enqueue_others (b : Beat) : (s.enqueue b).others = s.others := rfl
@[simp] theorem State.enqueue_serAcc (b : Beat) : (s.enqueue b).serAcc = s.serAcc := rfl
@[simp] theorem State.enqueue_serCnt (b : Beat) : (s.enqueue b).serCnt = s.serCnt := rfl
@[simp] theorem State.enqueue_desShr (b : Beat) : (s.enqueue b).desShr = s.desShr := rfl
@[simp] theorem State.enqueue_desCnt (b : Beat) : (s.enqueue b).desCnt = s.desCnt := rfl
@[simp] theorem State.enqueue_session (b : Beat) : (s.enqueue b).session = s.session := rfl
@[simp] theorem State.enqueue_calls (b : Beat) : (s.enqueue b).calls = s.calls := rfl
@[simp] theorem State.enqueue_result (b : Beat) : (s.enqueue b).result = s.result := rfl
@[simp] theorem State.enqueue_draws (b : Beat) : (s.enqueue b).draws = s.draws := rfl

/-! ### `State.started` -/

@[simp] theorem State.started_cfg : (s.started).cfg = s.cfg := rfl
@[simp] theorem State.started_hdrIn : (s.started).hdrIn = s.hdrIn := rfl
@[simp] theorem State.started_hdrOut : (s.started).hdrOut = s.hdrOut := rfl
@[simp] theorem State.started_enable : (s.started).enable = 1 := rfl
@[simp] theorem State.started_wq : (s.started).wq = s.wq := rfl
@[simp] theorem State.started_rq : (s.started).rq = s.rq := rfl
@[simp] theorem State.started_wcount : (s.started).wcount = s.wcount := rfl
@[simp] theorem State.started_rcount : (s.started).rcount = s.rcount := rfl
@[simp] theorem State.started_processing : (s.started).processing = true := rfl
@[simp] theorem State.started_answered : (s.started).answered = s.answered := rfl
@[simp] theorem State.started_pipe : (s.started).pipe = s.pipe := rfl
@[simp] theorem State.started_inTransfer : (s.started).inTransfer = true := rfl
@[simp] theorem State.started_others : (s.started).others = s.others := rfl
@[simp] theorem State.started_serAcc : (s.started).serAcc = s.serAcc := rfl
@[simp] theorem State.started_serCnt : (s.started).serCnt = s.serCnt := rfl
@[simp] theorem State.started_desShr : (s.started).desShr = s.desShr := rfl
@[simp] theorem State.started_desCnt : (s.started).desCnt = s.desCnt := rfl
@[simp] theorem State.started_session : (s.started).session = s.session := rfl
@[simp] theorem State.started_calls : (s.started).calls = s.calls := rfl
@[simp] theorem State.started_result : (s.started).result = s.result := rfl
@[simp] theorem State.started_draws : (s.started).draws = s.draws := rfl

/-! ### `State.setSession` -/

@[simp] theorem State.setSession_cfg (σ : Session) : (s.setSession σ).cfg = s.cfg := rfl
@[simp] theorem State.setSession_hdrIn (σ : Session) : (s.setSession σ).hdrIn = s.hdrIn := rfl
@[simp] theorem State.setSession_hdrOut (σ : Session) : (s.setSession σ).hdrOut = s.hdrOut := rfl
@[simp] theorem State.setSession_enable (σ : Session) : (s.setSession σ).enable = s.enable := rfl
@[simp] theorem State.setSession_wq (σ : Session) : (s.setSession σ).wq = s.wq := rfl
@[simp] theorem State.setSession_rq (σ : Session) : (s.setSession σ).rq = s.rq := rfl
@[simp] theorem State.setSession_wcount (σ : Session) : (s.setSession σ).wcount = s.wcount := rfl
@[simp] theorem State.setSession_rcount (σ : Session) : (s.setSession σ).rcount = s.rcount := rfl
@[simp] theorem State.setSession_processing (σ : Session) : (s.setSession σ).processing = s.processing := rfl
@[simp] theorem State.setSession_answered (σ : Session) : (s.setSession σ).answered = s.answered := rfl
@[simp] theorem State.setSession_pipe (σ : Session) : (s.setSession σ).pipe = s.pipe := rfl
@[simp] theorem State.setSession_inTransfer (σ : Session) : (s.setSession σ).inTransfer = s.inTransfer := rfl
@[simp] theorem State.setSession_others (σ : Session) : (s.setSession σ).others = s.others := rfl
@[simp] theorem State.setSession_serAcc (σ : Session) : (s.setSession σ).serAcc = s.serAcc := rfl
@[simp] theorem State.setSession_serCnt (σ : Session) : (s.setSession σ).serCnt = s.serCnt := rfl
@[simp] theorem State.setSession_desShr (σ : Session) : (s.setSession σ).desShr = s.desShr := rfl
@[simp] theorem State.setSession_desCnt (σ : Session) : (s.setSession σ).desCnt = s.desCnt := rfl
@[simp] theorem State.setSession_session (σ : Session) : (s.setSession σ).session = some σ := rfl
@[simp] theorem State.setSession_calls (σ : Session) : (s.setSession σ).calls = s.calls := rfl
@[simp] theorem State.setSession_result (σ : Session) : (s.setSession σ).result = s.result := rfl
@[simp] theorem State.setSession_draws (σ : Session) : (s.setSession σ).draws = s.draws := rfl

/-! ### `State.reportTimeout` -/

@[simp] theorem State.reportTimeout_cfg (σ : Session) : (s.reportTimeout σ).cfg = s.cfg := rfl
@[simp] theorem State.reportTimeout_hdrIn (σ : Session) : (s.reportTimeout σ).hdrIn = s.hdrIn := rfl
@[simp] theorem State.reportTimeout_hdrOut (σ : Session) : (s.reportTimeout σ).hdrOut = s.hdrOut := rfl
@[simp] theorem State.reportTimeout_enable (σ : Session) : (s.reportTimeout σ).enable = s.enable := rfl
@[simp] theorem State.reportTimeout_wq (σ : Session) : (s.reportTimeout σ).wq = s.wq := rfl
@[simp] theorem State.reportTimeout_rq (σ : Session) : (s.reportTimeout σ).rq = s.rq := rfl
@[simp] theorem State.reportTimeout_wcount (σ : Session) : (s.reportTimeout σ).wcount = s.wcount := rfl
@[simp] theorem State.reportTimeout_rcount (σ : Session) : (s.reportTimeout σ).rcount = s.rcount := rfl
@[simp] theorem State.reportTimeout_processing (σ : Session) : (s.reportTimeout σ).processing = s.processing :=
  rfl
@[simp] theorem State.reportTimeout_answered (σ : Session) : (s.reportTimeout σ).answered = s.answered := rfl
@[simp] theorem State.reportTimeout_pipe (σ : Session) : (s.reportTimeout σ).pipe = s.pipe := rfl
@[simp] theorem State.reportTimeout_inTransfer (σ : Session) : (s.reportTimeout σ).inTransfer = false := rfl
@[simp] theorem State.reportTimeout_others (σ : Session) : (s.reportTimeout σ).others = s.others := rfl
@[simp] theorem State.reportTimeout_serAcc (σ : Session) : (s.reportTimeout σ).serAcc = s.serAcc := rfl
@[simp] theorem State.reportTimeout_serCnt (σ : Session) : (s.reportTimeout σ).serCnt = s.serCnt := rfl
@[simp] theorem State.reportTimeout_desShr (σ : Session) : (s.reportTimeout σ).desShr = s.desShr := rfl
@[simp] theorem State.reportTimeout_desCnt (σ : Session) : (s.reportTimeout σ).desCnt = s.desCnt := rfl
@[simp] theorem State.reportTimeout_session (σ : Session) : (s.reportTimeout σ).session = some { σ with ended := true } :=
  rfl
@[simp] theorem State.reportTimeout_calls (σ : Session) : (s.reportTimeout σ).calls = s.calls := rfl
@[simp] theorem State.reportTimeout_result (σ : Session) : (s.reportTimeout σ).result = .timeout σ.polls := rfl
@[simp] theorem State.reportTimeout_draws (σ : Session) : (s.reportTimeout σ).draws = s.draws := rfl

/-! ### `State.noteCount` -/

@[simp] theorem State.noteCount_cfg (n : Nat) : (s.noteCount n).cfg = s.cfg :=
  by unfold State.noteCount; split <;> simp_all
@[simp] theorem State.noteCount_hdrIn (n : Nat) : (s.noteCount n).hdrIn = s.hdrIn :=
  by unfold State.noteCount; split <;> simp_all
@[simp] theorem State.noteCount_hdrOut (n : Nat) : (s.noteCount n).hdrOut = s.hdrOut :=
  by unfold State.noteCount; split <;> simp_all
@[simp] theorem State.noteCount_enable (n : Nat) : (s.noteCount n).enable = s.enable :=
  by unfold State.noteCount; split <;> simp_all
@[simp] theorem State.noteCount_wq (n : Nat) : (s.noteCount n).wq = s.wq :=
  by unfold State.noteCount; split <;> simp_all
@[simp] theorem State.noteCount_rq (n : Nat) : (s.noteCount n).rq = s.rq :=
  by unfold State.noteCount; split <;> simp_all
@[simp] theorem State.noteCount_wcount (n : Nat) : (s.noteCount n).wcount = s.wcount :=
  by unfold State.noteCount; split <;> simp_all
@[simp] theorem State.noteCount_rcount (n : Nat) : (s.noteCount n).rcount = s.rcount :=
  by unfold State.noteCount; split <;> simp_all
@[simp] theorem State.noteCount_processing (n : Nat) : (s.noteCount n).processing = (decide (n = 0) && s.processing) :=
  by unfold State.noteCount; split <;> simp_all
@[simp] theorem State.noteCount_answered (n : Nat) : (s.noteCount n).answered = (!decide (n = 0) || s.answered) :=
  by unfold State.noteCount; split <;> simp_all
@[simp] theorem State.noteCount_pipe (n : Nat) : (s.noteCount n).pipe = if n = 0 then s.pipe else s.pipeAfterTransfer :=
  by unfold State.noteCount; split <;> simp_all
@[simp] theorem State.noteCount_inTransfer (n : Nat) : (s.noteCount n).inTransfer = (decide (n = 0) && s.inTransfer) :=
  by unfold State.noteCount; split <;> simp_all
@[simp] theorem State.noteCount_others (n : Nat) : (s.noteCount n).others = s.others :=
  by unfold State.noteCount; split <;> simp_all
@[simp] theorem State.noteCount_serAcc (n : Nat) : (s.noteCount n).serAcc = s.serAcc :=
  by unfold State.noteCount; split <;> simp_all
@[simp] theorem State.noteCount_serCnt (n : Nat) : (s.noteCount n).serCnt = s.serCnt :=
  by unfold State.noteCount; split <;> simp_all
@[simp] theorem State.noteCount_desShr (n : Nat) : (s.noteCount n).desShr = s.desShr :=
  by unfold State.noteCount; split <;> simp_all
@[simp] theorem State.noteCount_desCnt (n : Nat) : (s.noteCount n).desCnt = s.desCnt :=
  by unfold State.noteCount; split <;> simp_all
@[simp] theorem State.noteCount_session (n : Nat) : (s.noteCount n).session = s.session :=
  by unfold State.noteCount; split <;> simp_all
@[simp] theorem State.noteCount_calls (n : Nat) : (s.noteCount n).calls = s.calls :=
  by unfold State.noteCount; split <;> simp_all
@[simp] theorem State.noteCount_result (n : Nat) : (s.noteCount n).result = s.result :=
  by unfold State.noteCount; split <;> simp_all
@[simp] theorem State.noteCount_draws (n : Nat) : (s.noteCount n).draws = s.draws :=
  by unfold State.noteCount; split <;> simp_all

/-! ### `State.afterHdrRead` -/

@[simp] theorem State.afterHdrRead_cfg (f : HField) : (s.afterHdrRead f).cfg = s.cfg :=
  by unfold State.afterHdrRead; split <;> simp
@[simp] theorem State.afterHdrRead_hdrIn (f : HField) : (s.afterHdrRead f).hdrIn = s.hdrIn :=
  by unfold State.afterHdrRead; split <;> simp
@[simp] theorem State.afterHdrRead_hdrOut (f : HField) : (s.afterHdrRead f).hdrOut = s.hdrOut :=
  by unfold State.afterHdrRead; split <;> simp
@[simp] theorem State.afterHdrRead_enable (f : HField) : (s.afterHdrRead f).enable = s.enable :=
  by unfold State.afterHdrRead; split <;> simp
@[simp] theorem State.afterHdrRead_wq (f : HField) : (s.afterHdrRead f).wq = s.wq :=
  by unfold State.afterHdrRead; split <;> simp
@[simp] theorem State.afterHdrRead_rq (f : HField) : (s.afterHdrRead f).rq = s.rq :=
  by unfold State.afterHdrRead; split <;> simp
@[simp] theorem State.afterHdrRead_wcount (f : HField) : (s.afterHdrRead f).wcount = s.wcount :=
  by unfold State.afterHdrRead; split <;> simp
@[simp] theorem State.afterHdrRead_rcount (f : HField) : (s.afterHdrRead f).rcount = s.rcount :=
  by unfold State.afterHdrRead; split <;> simp
@[simp] theorem State.afterHdrRead_others (f : HField) : (s.afterHdrRead f).others = s.others :=
  by unfold State.afterHdrRead; split <;> simp
@[simp] theorem State.afterHdrRead_serAcc (f : HField) : (s.afterHdrRead f).serAcc = s.serAcc :=
  by unfold State.afterHdrRead; split <;> simp
@[simp] theorem State.afterHdrRead_serCnt (f : HField) : (s.afterHdrRead f).serCnt = s.serCnt :=
  by unfold State.afterHdrRead; split <;> simp
@[simp] theorem State.afterHdrRead_desShr (f : HField) : (s.afterHdrRead f).desShr = s.desShr :=
  by unfold State.afterHdrRead; split <;> simp
@[simp] theorem State.afterHdrRead_desCnt (f : HField) : (s.afterHdrRead f).desCnt = s.desCnt :=
  by unfold State.afterHdrRead; split <;> simp
@[simp] theorem State.afterHdrRead_session (f : HField) : (s.afterHdrRead f).session = s.session :=
  by unfold State.afterHdrRead; split <;> simp
@[simp] theorem State.afterHdrRead_calls (f : HField) : (s.afterHdrRead f).calls = s.calls :=
  by unfold State.afterHdrRead; split <;> simp
@[simp] theorem State.afterHdrRead_result (f : HField) : (s.afterHdrRead f).result = s.result :=
  by unfold State.afterHdrRead; split <;> simp
@[simp] theorem State.afterHdrRead_draws (f : HField) : (s.afterHdrRead f).draws = s.draws :=
  by unfold State.afterHdrRead; split <;> simp

/-! ### `State.afterFraming` -/

@[simp] theorem State.afterFraming_cfg (bs : List Beat) : (s.afterFraming bs).cfg = s.cfg :=
  by cases bs <;> simp [State.afterFraming, List.getLast?_cons]
@[simp] theorem State.afterFraming_hdrIn (bs : List Beat) : (s.afterFraming bs).hdrIn = s.hdrIn :=
  by cases bs <;> simp [State.afterFraming, List.getLast?_cons]
@[simp] theorem State.afterFraming_hdrOut (bs : List Beat) : (s.afterFraming bs).hdrOut = s.hdrOut :=
  by cases bs <;> simp [State.afterFraming, List.getLast?_cons]
@[simp] theorem State.afterFraming_enable (bs : List Beat) : (s.afterFraming bs).enable = s.enable :=
  by cases bs <;> simp [State.afterFraming, List.getLast?_cons]
@[simp] theorem State.afterFraming_wq (bs : List Beat) : (s.afterFraming bs).wq = s.wq :=
  by cases bs <;> simp [State.afterFraming, List.getLast?_cons]
@[simp] theorem State.afterFraming_rq (bs : List Beat) : (s.afterFraming bs).rq = s.rq :=
  by cases bs <;> simp [State.afterFraming, List.getLast?_cons]
@[simp] theorem State.afterFraming_wcount (bs : List Beat) : (s.afterFraming bs).wcount = s.wcount :=
  by cases bs <;> simp [State.afterFraming, List.getLast?_cons]
@[simp] theorem State.afterFraming_rcount (bs : List Beat) : (s.afterFraming bs).rcount = s.rcount :=
  by cases bs <;> simp [State.afterFraming, List.getLast?_cons]
@[simp] theorem State.afterFraming_processing (bs : List Beat) : (s.afterFraming bs).processing = s.processing :=
  by cases bs <;> simp [State.afterFraming, List.getLast?_cons]
@[simp] theorem State.afterFraming_answered (bs : List Beat) : (s.afterFraming bs).answered = s.answered :=
  by cases bs <;> simp [State.afterFraming, List.getLast?_cons]
@[simp] theorem State.afterFraming_pipe (bs : List Beat) : (s.afterFraming bs).pipe = s.pipe :=
  by cases bs <;> simp [State.afterFraming, List.getLast?_cons]
@[simp] theorem State.afterFraming_inTransfer (bs : List Beat) : (s.afterFraming bs).inTransfer = s.inTransfer :=
  by cases bs <;> simp [State.afterFraming, List.getLast?_cons]
@[simp] theorem State.afterFraming_others (bs : List Beat) : (s.afterFraming bs).others = s.others :=
  by cases bs <;> simp [State.afterFraming, List.getLast?_cons]
@[simp] theorem State.afterFraming_serAcc (bs : List Beat) : (s.afterFraming bs).serAcc = (bs.getLast?).getD s.serAcc :=
  by cases bs <;> simp [State.afterFraming, List.getLast?_cons]
@[simp] theorem State.afterFraming_serCnt (bs : List Beat) : (s.afterFraming bs).serCnt = if bs = [] then s.serCnt else 8 :=
  by cases bs <;> simp [State.afterFraming, List.getLast?_cons]
@[simp] theorem State.afterFraming_desShr (bs : List Beat) : (s.afterFraming bs).desShr = s.desShr :=
  by cases bs <;> simp [State.afterFraming, List.getLast?_cons]
@[simp] theorem State.afterFraming_desCnt (bs : List Beat) : (s.afterFraming bs).desCnt = s.desCnt :=
  by cases bs <;> simp [State.afterFraming, List.getLast?_cons]
@[simp] theorem State.afterFraming_session (bs : List Beat) : (s.afterFraming bs).session = s.session :=
  by cases bs <;> simp [State.afterFraming, List.getLast?_cons]
@[simp] theorem State.afterFraming_calls (bs : List Beat) : (s.afterFraming bs).calls = s.calls :=
  by cases bs <;> simp [State.afterFraming, List.getLast?_cons]
@[simp] theorem State.afterFraming_result (bs : List Beat) : (s.afterFraming bs).result = s.result :=
  by cases bs <;> simp [State.afterFraming, List.getLast?_cons]
@[simp] theorem State.afterFraming_draws (bs : List Beat) : (s.afterFraming bs).draws = s.draws :=
  by cases bs <;> simp [State.afterFraming, List.getLast?_cons]

/-! ### `State.afterUnframing` -/

@[simp] theorem State.afterUnframing_cfg (bs : List Beat) : (s.afterUnframing bs).cfg = s.cfg :=
  by unfold State.afterUnframing; split <;> simp_all
@[simp] theorem State.afterUnframing_hdrIn (bs : List Beat) : (s.afterUnframing bs).hdrIn = s.hdrIn :=
  by unfold State.afterUnframing; split <;> simp_all
@[simp] theorem State.afterUnframing_hdrOut (bs : List Beat) : (s.afterUnframing bs).hdrOut = s.hdrOut :=
  by unfold State.afterUnframing; split <;> simp_all
@[simp] theorem State.afterUnframing_enable (bs : List Beat) : (s.afterUnframing bs).enable = s.enable :=
  by unfold State.afterUnframing; split <;> simp_all
@[simp] theorem State.afterUnframing_wq (bs : List Beat) : (s.afterUnframing bs).wq = s.wq :=
  by unfold State.afterUnframing; split <;> simp_all
@[simp] theorem State.afterUnframing_rq (bs : List Beat) : (s.afterUnframing bs).rq = s.rq :=
  by unfold State.afterUnframing; split <;> simp_all
@[simp] theorem State.afterUnframing_wcount (bs : List Beat) : (s.afterUnframing bs).wcount = s.wcount :=
  by unfold State.afterUnframing; split <;> simp_all
@[simp] theorem State.afterUnframing_rcount (bs : List Beat) : (s.afterUnframing bs).rcount = s.rcount :=
  by unfold State.afterUnframing; split <;> simp_all
@[simp] theorem State.afterUnframing_processing (bs : List Beat) : (s.afterUnframing bs).processing = s.processing :=
  by unfold State.afterUnframing; split <;> simp_all
@[simp] theorem State.afterUnframing_answered (bs : List Beat) : (s.afterUnframing bs).answered = s.answered :=
  by unfold State.afterUnframing; split <;> simp_all
@[simp] theorem State.afterUnframing_pipe (bs : List Beat) : (s.afterUnframing bs).pipe = s.pipe :=
  by unfold State.afterUnframing; split <;> simp_all
@[simp] theorem State.afterUnframing_inTransfer (bs : List Beat) : (s.afterUnframing bs).inTransfer = s.inTransfer :=
  by unfold State.afterUnframing; split <;> simp_all
@[simp] theorem State.afterUnframing_others (bs : List Beat) : (s.afterUnframing bs).others = s.others :=
  by unfold State.afterUnframing; split <;> simp_all
@[simp] theorem State.afterUnframing_serAcc (bs : List Beat) : (s.afterUnframing bs).serAcc = s.serAcc :=
  by unfold State.afterUnframing; split <;> simp_all
@[simp] theorem State.afterUnframing_serCnt (bs : List Beat) : (s.afterUnframing bs).serCnt = s.serCnt :=
  by unfold State.afterUnframing; split <;> simp_all
@[simp] theorem State.afterUnframing_desShr (bs : List Beat) : (s.afterUnframing bs).desShr = if bs = [] then s.desShr else 0 :=
  by unfold State.afterUnframing; split <;> simp_all
@[simp] theorem State.afterUnframing_desCnt (bs : List Beat) : (s.afterUnframing bs).desCnt = if bs = [] then s.desCnt else 8 :=
  by unfold State.afterUnframing; split <;> simp_all
@[simp] theorem State.afterUnframing_session (bs : List Beat) : (s.afterUnframing bs).session = s.session :=
  by unfold State.afterUnframing; split <;> simp_all
@[simp] theorem State.afterUnframing_calls (bs : List Beat) : (s.afterUnframing bs).calls = s.calls :=
  by unfold State.afterUnframing; split <;> simp_all
@[simp] theorem State.afterUnframing_result (bs : List Beat) : (s.afterUnframing bs).result = s.result :=
  by unfold State.afterUnframing; split <;> simp_all
@[simp] theorem State.afterUnframing_draws (bs : List Beat) : (s.afterUnframing bs).draws = s.draws :=
  by unfold State.afterUnframing; split <;> simp_all

/-! ### `State.readyToPush` -/

@[simp] theorem State.readyToPush_cfg : (s.readyToPush).cfg = s.cfg :=
  by unfold State.readyToPush; split <;> rfl
@[simp] theorem State.readyToPush_hdrIn : (s.readyToPush).hdrIn = s.hdrIn :=
  by unfold State.readyToPush; split <;> rfl
@[simp] theorem State.readyToPush_hdrOut : (s.readyToPush).hdrOut = s.hdrOut :=
  by unfold State.readyToPush; split <;> rfl
@[simp] theorem State.readyToPush_enable : (s.readyToPush).enable = s.enable :=
  by unfold State.readyToPush; split <;> rfl
@[simp] theorem State.readyToPush_wq : (s.readyToPush).wq = s.wq := by unfold State.readyToPush; split <;> rfl
@[simp] theorem State.readyToPush_rq : (s.readyToPush).rq = s.rq := by unfold State.readyToPush; split <;> rfl
@[simp] theorem State.readyToPush_wcount : (s.readyToPush).wcount = s.wcount :=
  by unfold State.readyToPush; split <;> rfl
@[simp] theorem State.readyToPush_rcount : (s.readyToPush).rcount = s.rcount :=
  by unfold State.readyToPush; split <;> rfl
@[simp] theorem State.readyToPush_processing : (s.readyToPush).processing = s.processing :=
  by unfold State.readyToPush; split <;> rfl
@[simp] theorem State.readyToPush_answered : (s.readyToPush).answered = s.answered :=
  by unfold State.readyToPush; split <;> rfl
@[simp] theorem State.readyToPush_pipe : (s.readyToPush).pipe = s.pipe :=
  by unfold State.readyToPush; split <;> rfl
@[simp] theorem State.readyToPush_inTransfer : (s.readyToPush).inTransfer = s.inTransfer :=
  by unfold State.readyToPush; split <;> rfl
@[simp] theorem State.readyToPush_others : (s.readyToPush).others = s.others :=
  by unfold State.readyToPush; split <;> rfl
@[simp] theorem State.readyToPush_serAcc : (s.readyToPush).serAcc = if s.serCnt < 8 then s.serAcc else 0 :=
  by unfold State.readyToPush; split <;> rfl
@[simp] theorem State.readyToPush_serCnt : (s.readyToPush).serCnt = if s.serCnt < 8 then s.serCnt else 0 :=
  by unfold State.readyToPush; split <;> rfl
@[simp] theorem State.readyToPush_desShr : (s.readyToPush).desShr = s.desShr :=
  by unfold State.readyToPush; split <;> rfl
@[simp] theorem State.readyToPush_desCnt : (s.readyToPush).desCnt = s.desCnt :=
  by unfold State.readyToPush; split <;> rfl
@[simp] theorem State.readyToPush_session : (s.readyToPush).session = s.session :=
  by unfold State.readyToPush; split <;> rfl
@[simp] theorem State.readyToPush_calls : (s.readyToPush).calls = s.calls :=
  by unfold State.readyToPush; split <;> rfl
@[simp] theorem State.readyToPush_result : (s.readyToPush).result = s.result :=
  by unfold State.readyToPush; split <;> rfl
@[simp] theorem State.readyToPush_draws : (s.readyToPush).draws = s.draws :=
  by unfold State.readyToPush; split <;> rfl

/-! ### `State.readyToPop` -/

@[simp] theorem State.readyToPop_cfg : (s.readyToPop).cfg = s.cfg := by unfold State.readyToPop; split <;> rfl
@[simp] theorem State.readyToPop_hdrIn : (s.readyToPop).hdrIn = s.hdrIn :=
  by unfold State.readyToPop; split <;> rfl
@[simp] theorem State.readyToPop_hdrOut : (s.readyToPop).hdrOut = s.hdrOut :=
  by unfold State.readyToPop; split <;> rfl
@[simp] theorem State.readyToPop_enable : (s.readyToPop).enable = s.enable :=
  by unfold State.readyToPop; split <;> rfl
@[simp] theorem State.readyToPop_wq : (s.readyToPop).wq = s.wq := by unfold State.readyToPop; split <;> rfl
@[simp] theorem State.readyToPop_rq : (s.readyToPop).rq = s.rq := by unfold State.readyToPop; split <;> rfl
@[simp] theorem State.readyToPop_wcount : (s.readyToPop).wcount = s.wcount :=
  by unfold State.readyToPop; split <;> rfl
@[simp] theorem State.readyToPop_rcount : (s.readyToPop).rcount = s.rcount :=
  by unfold State.readyToPop; split <;> rfl
@[simp] theorem State.readyToPop_processing : (s.readyToPop).processing = s.processing :=
  by unfold State.readyToPop; split <;> rfl
@[simp] theorem State.readyToPop_answered : (s.readyToPop).answered = s.answered :=
  by unfold State.readyToPop; split <;> rfl
@[simp] theorem State.readyToPop_pipe : (s.readyToPop).pipe = s.pipe :=
  by unfold State.readyToPop; split <;> rfl
@[simp] theorem State.readyToPop_inTransfer : (s.readyToPop).inTransfer = s.inTransfer :=
  by unfold State.readyToPop; split <;> rfl
@[simp] theorem State.readyToPop_others : (s.readyToPop).others = s.others :=
  by unfold State.readyToPop; split <;> rfl
@[simp] theorem State.readyToPop_serAcc : (s.readyToPop).serAcc = s.serAcc :=
  by unfold State.readyToPop; split <;> rfl
@[simp] theorem State.readyToPop_serCnt : (s.readyToPop).serCnt = s.serCnt :=
  by unfold State.readyToPop; split <;> rfl
@[simp] theorem State.readyToPop_desShr : (s.readyToPop).desShr = if s.desCnt < 8 then s.desShr else Config.unloadedBeat s.draws :=
  by unfold State.readyToPop; split <;> rfl
@[simp] theorem State.readyToPop_desCnt : (s.readyToPop).desCnt = if s.desCnt < 8 then s.desCnt else 0 :=
  by unfold State.readyToPop; split <;> rfl
@[simp] theorem State.readyToPop_session : (s.readyToPop).session = s.session :=
  by unfold State.readyToPop; split <;> rfl
@[simp] theorem State.readyToPop_calls : (s.readyToPop).calls = s.calls :=
  by unfold State.readyToPop; split <;> rfl
@[simp] theorem State.readyToPop_result : (s.readyToPop).result = s.result :=
  by unfold State.readyToPop; split <;> rfl
@[simp] theorem State.readyToPop_draws : (s.readyToPop).draws = if s.desCnt < 8 then s.draws else s.draws + 1 :=
  by unfold State.readyToPop; split <;> rfl

/-! ### `State.pushByte` -/

@[simp] theorem State.pushByte_cfg (b : Byte) : (s.pushByte b).cfg = s.cfg := by simp [State.pushByte]
@[simp] theorem State.pushByte_hdrIn (b : Byte) : (s.pushByte b).hdrIn = s.hdrIn := by simp [State.pushByte]
@[simp] theorem State.pushByte_hdrOut (b : Byte) : (s.pushByte b).hdrOut = s.hdrOut := by simp [State.pushByte]
@[simp] theorem State.pushByte_enable (b : Byte) : (s.pushByte b).enable = s.enable := by simp [State.pushByte]
@[simp] theorem State.pushByte_wq (b : Byte) : (s.pushByte b).wq = s.wq := by simp [State.pushByte]
@[simp] theorem State.pushByte_rq (b : Byte) : (s.pushByte b).rq = s.rq := by simp [State.pushByte]
@[simp] theorem State.pushByte_wcount (b : Byte) : (s.pushByte b).wcount = s.wcount := by simp [State.pushByte]
@[simp] theorem State.pushByte_rcount (b : Byte) : (s.pushByte b).rcount = s.rcount := by simp [State.pushByte]
@[simp] theorem State.pushByte_processing (b : Byte) : (s.pushByte b).processing = s.processing :=
  by simp [State.pushByte]
@[simp] theorem State.pushByte_answered (b : Byte) : (s.pushByte b).answered = s.answered :=
  by simp [State.pushByte]
@[simp] theorem State.pushByte_pipe (b : Byte) : (s.pushByte b).pipe = s.pipe := by simp [State.pushByte]
@[simp] theorem State.pushByte_inTransfer (b : Byte) : (s.pushByte b).inTransfer = s.inTransfer :=
  by simp [State.pushByte]
@[simp] theorem State.pushByte_others (b : Byte) : (s.pushByte b).others = s.others := by simp [State.pushByte]
@[simp] theorem State.pushByte_serAcc (b : Byte) : (s.pushByte b).serAcc = serStep s.cfg.serOrder (if s.serCnt < 8 then s.serAcc else 0) b :=
  by simp [State.pushByte]
@[simp] theorem State.pushByte_serCnt (b : Byte) : (s.pushByte b).serCnt = (if s.serCnt < 8 then s.serCnt else 0) + 1 :=
  by simp [State.pushByte]
@[simp] theorem State.pushByte_desShr (b : Byte) : (s.pushByte b).desShr = s.desShr := by simp [State.pushByte]
@[simp] theorem State.pushByte_desCnt (b : Byte) : (s.pushByte b).desCnt = s.desCnt := by simp [State.pushByte]
@[simp] theorem State.pushByte_session (b : Byte) : (s.pushByte b).session = s.session :=
  by simp [State.pushByte]
@[simp] theorem State.pushByte_calls (b : Byte) : (s.pushByte b).calls = s.calls := by simp [State.pushByte]
@[simp] theorem State.pushByte_result (b : Byte) : (s.pushByte b).result = s.result := by simp [State.pushByte]
@[simp] theorem State.pushByte_draws (b : Byte) : (s.pushByte b).draws = s.draws := by simp [State.pushByte]

/-! ### `State.popByte` -/

@[simp] theorem State.popByte_cfg : (s.popByte).cfg = s.cfg := by simp [State.popByte]
@[simp] theorem State.popByte_hdrIn : (s.popByte).hdrIn = s.hdrIn := by simp [State.popByte]
@[simp] theorem State.popByte_hdrOut : (s.popByte).hdrOut = s.hdrOut := by simp [State.popByte]
@[simp] theorem State.popByte_enable : (s.popByte).enable = s.enable := by simp [State.popByte]
@[simp] theorem State.popByte_wq : (s.popByte).wq = s.wq := by simp [State.popByte]
@[simp] theorem State.popByte_rq : (s.popByte).rq = s.rq := by simp [State.popByte]
@[simp] theorem State.popByte_wcount : (s.popByte).wcount = s.wcount := by simp [State.popByte]
@[simp] theorem State.popByte_rcount : (s.popByte).rcount = s.rcount := by simp [State.popByte]
@[simp] theorem State.popByte_processing : (s.popByte).processing = s.processing := by simp [State.popByte]
@[simp] theorem State.popByte_answered : (s.popByte).answered = s.answered := by simp [State.popByte]
@[simp] theorem State.popByte_pipe : (s.popByte).pipe = s.pipe := by simp [State.popByte]
@[simp] theorem State.popByte_inTransfer : (s.popByte).inTransfer = s.inTransfer := by simp [State.popByte]
@[simp] theorem State.popByte_others : (s.popByte).others = s.others := by simp [State.popByte]
@[simp] theorem State.popByte_serAcc : (s.popByte).serAcc = s.serAcc := by simp [State.popByte]
@[simp] theorem State.popByte_serCnt : (s.popByte).serCnt = s.serCnt := by simp [State.popByte]
@[simp] theorem State.popByte_desShr : (s.popByte).desShr = desNext s.cfg.desOrder (if s.desCnt < 8 then s.desShr else Config.unloadedBeat s.draws) :=
  by simp [State.popByte]
@[simp] theorem State.popByte_desCnt : (s.popByte).desCnt = (if s.desCnt < 8 then s.desCnt else 0) + 1 :=
  by simp [State.popByte]
@[simp] theorem State.popByte_session : (s.popByte).session = s.session := by simp [State.popByte]
@[simp] theorem State.popByte_calls : (s.popByte).calls = s.calls := by simp [State.popByte]
@[simp] theorem State.popByte_result : (s.popByte).result = s.result := by simp [State.popByte]
@[simp] theorem State.popByte_draws : (s.popByte).draws = if s.desCnt < 8 then s.draws else s.draws + 1 :=
  by simp [State.popByte]

/-! ### `State.discardEnded` -/

@[simp] theorem State.discardEnded_cfg : (s.discardEnded).cfg = s.cfg := rfl
@[simp] theorem State.discardEnded_hdrIn : (s.discardEnded).hdrIn = s.hdrIn := rfl
@[simp] theorem State.discardEnded_hdrOut : (s.discardEnded).hdrOut = s.hdrOut := rfl
@[simp] theorem State.discardEnded_enable : (s.discardEnded).enable = s.enable := rfl
@[simp] theorem State.discardEnded_wq : (s.discardEnded).wq = s.wq := rfl
@[simp] theorem State.discardEnded_rq : (s.discardEnded).rq = s.rq := rfl
@[simp] theorem State.discardEnded_wcount : (s.discardEnded).wcount = s.wcount := rfl
@[simp] theorem State.discardEnded_rcount : (s.discardEnded).rcount = s.rcount := rfl
@[simp] theorem State.discardEnded_processing : (s.discardEnded).processing = s.processing := rfl
@[simp] theorem State.discardEnded_answered : (s.discardEnded).answered = s.answered := rfl
@[simp] theorem State.discardEnded_pipe : (s.discardEnded).pipe = s.pipe := rfl
@[simp] theorem State.discardEnded_inTransfer : (s.discardEnded).inTransfer = s.inTransfer := rfl
@[simp] theorem State.discardEnded_others : (s.discardEnded).others = s.others := rfl
@[simp] theorem State.discardEnded_serAcc : (s.discardEnded).serAcc = s.serAcc := rfl
@[simp] theorem State.discardEnded_serCnt : (s.discardEnded).serCnt = s.serCnt := rfl
@[simp] theorem State.discardEnded_desShr : (s.discardEnded).desShr = s.desShr := rfl
@[simp] theorem State.discardEnded_desCnt : (s.discardEnded).desCnt = s.desCnt := rfl
@[simp] theorem State.discardEnded_session : (s.discardEnded).session = s.session.filter fun σ => !σ.ended :=
  rfl
@[simp] theorem State.discardEnded_calls : (s.discardEnded).calls = s.calls := rfl
@[simp] theorem State.discardEnded_result : (s.discardEnded).result = s.result := rfl
@[simp] theorem State.discardEnded_draws : (s.discardEnded).draws = s.draws := rfl

/-! ### `State.popRq` -/

@[simp] theorem State.popRq_cfg : (s.popRq.2).cfg = s.cfg := by unfold State.popRq; split <;> simp_all
@[simp] theorem State.popRq_hdrIn : (s.popRq.2).hdrIn = s.hdrIn := by unfold State.popRq; split <;> simp_all
@[simp] theorem State.popRq_hdrOut : (s.popRq.2).hdrOut = s.hdrOut := by unfold State.popRq; split <;> simp_all
@[simp] theorem State.popRq_enable : (s.popRq.2).enable = s.enable := by unfold State.popRq; split <;> simp_all
@[simp] theorem State.popRq_wq : (s.popRq.2).wq = s.wq := by unfold State.popRq; split <;> simp_all
@[simp] theorem State.popRq_rq : (s.popRq.2).rq = s.rq.tail := by unfold State.popRq; split <;> simp_all
@[simp] theorem State.popRq_wcount : (s.popRq.2).wcount = s.wcount := by unfold State.popRq; split <;> simp_all
@[simp] theorem State.popRq_rcount : (s.popRq.2).rcount = s.rcount := by unfold State.popRq; split <;> simp_all
@[simp] theorem State.popRq_processing : (s.popRq.2).processing = s.processing :=
  by unfold State.popRq; split <;> simp_all
@[simp] theorem State.popRq_answered : (s.popRq.2).answered = s.answered :=
  by unfold State.popRq; split <;> simp_all
@[simp] theorem State.popRq_pipe : (s.popRq.2).pipe = s.pipe := by unfold State.popRq; split <;> simp_all
@[simp] theorem State.popRq_inTransfer : (s.popRq.2).inTransfer = s.inTransfer :=
  by unfold State.popRq; split <;> simp_all
@[simp] theorem State.popRq_others : (s.popRq.2).others = s.others := by unfold State.popRq; split <;> simp_all
@[simp] theorem State.popRq_serAcc : (s.popRq.2).serAcc = s.serAcc := by unfold State.popRq; split <;> simp_all
@[simp] theorem State.popRq_serCnt : (s.popRq.2).serCnt = s.serCnt := by unfold State.popRq; split <;> simp_all
@[simp] theorem State.popRq_desShr : (s.popRq.2).desShr = s.desShr := by unfold State.popRq; split <;> simp_all
@[simp] theorem State.popRq_desCnt : (s.popRq.2).desCnt = s.desCnt := by unfold State.popRq; split <;> simp_all
@[simp] theorem State.popRq_session : (s.popRq.2).session = s.session :=
  by unfold State.popRq; split <;> simp_all
@[simp] theorem State.popRq_calls : (s.popRq.2).calls = s.calls := by unfold State.popRq; split <;> simp_all
@[simp] theorem State.popRq_result : (s.popRq.2).result = s.result := by unfold State.popRq; split <;> simp_all

/-! ### `State.pipelineTurn` -/

@[simp] theorem State.pipelineTurn_cfg : (s.pipelineTurn).cfg = s.cfg := s.toBlock.turn_cfg
@[simp] theorem State.pipelineTurn_hdrIn : (s.pipelineTurn).hdrIn = s.hdrIn := s.toBlock.turn_hdrIn
@[simp] theorem State.pipelineTurn_processing : (s.pipelineTurn).processing = s.processing :=
  s.toBlock.turn_processing
@[simp] theorem State.pipelineTurn_answered : (s.pipelineTurn).answered = s.answered := s.toBlock.turn_answered
@[simp] theorem State.pipelineTurn_inTransfer : (s.pipelineTurn).inTransfer = s.inTransfer :=
  s.toBlock.turn_inTransfer
@[simp] theorem State.pipelineTurn_others : (s.pipelineTurn).others = s.others.map Block.turn := rfl
@[simp] theorem State.pipelineTurn_serAcc : (s.pipelineTurn).serAcc = s.serAcc := rfl
@[simp] theorem State.pipelineTurn_serCnt : (s.pipelineTurn).serCnt = s.serCnt := rfl
@[simp] theorem State.pipelineTurn_desShr : (s.pipelineTurn).desShr = s.desShr := rfl
@[simp] theorem State.pipelineTurn_desCnt : (s.pipelineTurn).desCnt = s.desCnt := rfl
@[simp] theorem State.pipelineTurn_session : (s.pipelineTurn).session = s.session := rfl
@[simp] theorem State.pipelineTurn_calls : (s.pipelineTurn).calls = s.calls := rfl
@[simp] theorem State.pipelineTurn_result : (s.pipelineTurn).result = s.result := rfl
@[simp] theorem State.pipelineTurn_draws : (s.pipelineTurn).draws = s.draws := rfl

/-! ### `State.swap` -/

@[simp] theorem State.swap_serAcc (j : Nat) : (s.swap j).serAcc = s.serAcc :=
  by unfold State.swap; split <;> rfl
@[simp] theorem State.swap_serCnt (j : Nat) : (s.swap j).serCnt = s.serCnt :=
  by unfold State.swap; split <;> rfl
@[simp] theorem State.swap_desShr (j : Nat) : (s.swap j).desShr = s.desShr :=
  by unfold State.swap; split <;> rfl
@[simp] theorem State.swap_desCnt (j : Nat) : (s.swap j).desCnt = s.desCnt :=
  by unfold State.swap; split <;> rfl
@[simp] theorem State.swap_session (j : Nat) : (s.swap j).session = s.session :=
  by unfold State.swap; split <;> rfl
@[simp] theorem State.swap_calls (j : Nat) : (s.swap j).calls = s.calls := by unfold State.swap; split <;> rfl
@[simp] theorem State.swap_result (j : Nat) : (s.swap j).result = s.result :=
  by unfold State.swap; split <;> rfl
@[simp] theorem State.swap_draws (j : Nat) : (s.swap j).draws = s.draws := by unfold State.swap; split <;> rfl

end Sys2Proof.Machine
end

