-- ==== Sys2Proof/Laws/Ops.lean ====
section
/-! SUPPORT. What the shared operations can do, once each: "if it answers next `t`, then …"; and what a step can do. -/

namespace Sys2Proof.Machine

variable {s t : State} {a : Answer}

/-- `HDR_IN` after a write, field by field. -/
@[simp] theorem Header.get_set (h : Header) (f g : HField) (v : Word32) :
    (h.set f v).get g = if f = g then v else h.get g := by
  cases f <;> cases g <;> rfl

theorem onNext_eq_next {k : State → Answer} (h : onNext a k = .next t) : ∃ u, a = .next u ∧ k u = .next t := by
  cases a <;> simp_all [onNext]

@[simp] theorem onNext_next (u : State) (k : State → Answer) : onNext (.next u) k = k u := rfl
@[simp] theorem onNext_refused (r : Refusal) (k : State → Answer) : onNext (.refused r) k = .refused r := rfl
@[simp] theorem onNext_fault (f : Fault) (k : State → Answer) : onNext (.fault f) k = .fault f := rfl

theorem whenHostFree_eq_next (h : s.whenHostFree a = .next t) : s.hostFree = true ∧ a = .next t := by
  unfold State.whenHostFree at h
  split at h <;> simp_all

theorem beforeStart_eq_next (h : s.beforeStart a = .next t) : s.inTransfer = false ∧ a = .next t := by
  unfold State.beforeStart at h
  split at h <;> simp_all

theorem withBeatOf8_eq_next (h : s.withBeatOf8 a = .next t) : s.cfg.bytesPerBeat = 8 ∧ a = .next t := by
  unfold State.withBeatOf8 at h
  split at h <;> simp_all

/-- Whether the host is free is a matter of the session alone. -/
theorem hostFree_congr (h : t.session = s.session) : t.hostFree = s.hostFree := by
  unfold State.hostFree
  rw [h]

theorem whenHostFree_of_free (h : s.hostFree = true) : s.whenHostFree a = a := by
  simp [State.whenHostFree, h]

theorem beforeStart_of_open (h : s.inTransfer = false) : s.beforeStart a = a := by
  simp [State.beforeStart, h]

theorem withBeatOf8_of_eq (h : s.cfg.bytesPerBeat = 8) : s.withBeatOf8 a = a := by
  simp [State.withBeatOf8, h]

/-- A push that goes through: before the start, with room, the beat appended (R174). -/
theorem pushWq_eq_next {b : Beat} (h : s.pushWq b = .next t) :
    s.inTransfer = false ∧ s.wqFull = false ∧ t = s.enqueue b := by
  obtain ⟨ho, h⟩ := beforeStart_eq_next h
  split at h <;> simp_all

/-- A start that goes through (R176). -/
theorem start_eq_next (h : s.start = .next t) : s.inTransfer = false ∧ t = s.started := by
  obtain ⟨ho, h⟩ := beforeStart_eq_next h
  simp_all

/-- A register write that goes through wrote one header field, pushed a beat or started the pipeline (R170). -/
theorem regWrite_eq_next {w : Config.Width} {addr : Nat} {v : Word64} (h : s.regWrite w addr v = .next t) :
    (∃ f, writeTarget s.cfg w addr = some (.hdrIn f) ∧ s.inTransfer = false ∧ t = s.setHdrIn f (v.setWidth 32)) ∨
      (writeTarget s.cfg w addr = some .writeQueue ∧ s.inTransfer = false ∧ s.wqFull = false ∧ t = s.enqueue v) ∨
      (writeTarget s.cfg w addr = some .enable ∧ s.inTransfer = false ∧ v = 1 ∧ t = s.started) := by
  unfold State.regWrite at h
  split at h
  · obtain ⟨ho, h⟩ := beforeStart_eq_next h
    simp_all
  · simp_all [pushWq_eq_next h]
  · split at h
    · simp_all [start_eq_next h]
    · cases h
  · cases h

/-- A write of 32 bits never reaches the queue, one of 64 bits no header field (R56). -/
theorem writeTarget_w32_ne_queue (cfg : Config.Params) (addr : Nat) :
    writeTarget cfg .w32 addr ≠ some .writeQueue := by
  unfold writeTarget
  split <;> simp_all

/-- What a 32-bit write at a header offset is found to be (R26). -/
theorem writeTarget_hdrIn {cfg : Config.Params} {w : Config.Width} {addr : Nat} {f : HField}
    (h : writeTarget cfg w addr = some (.hdrIn f)) : w = .w32 ∧ addr = cfg.hdrBase + f.inOffset := by
  unfold writeTarget at h
  split at h
  · next hf => exact ⟨rfl, by have := List.find?_some hf; simp_all⟩
  · split at h <;> simp_all
  · split at h
    · simp_all
    · split at h <;> simp_all

/-- A pop takes the head of `RQ`, or from an empty `RQ` a free value (R175). -/
theorem popRq_cases (s : State) :
    (s.rq = [] ∧ s.popRq = (Config.emptyPop s.draws s.pipe, { s with draws := s.draws + 1 })) ∨
      (∃ b rest, s.rq = b :: rest ∧ s.popRq = (b, { s with rq := rest })) := by
  unfold State.popRq
  split <;> simp_all

/-- What reading a count does, but for the loopback mock's own count: a non-zero one ends the transfer (R221). -/
theorem noteCount_eq (h : s.cfg.transport ≠ .loopback) (n : Nat) :
    s.noteCount n = if n ≠ 0 then s.transferOver else s := by
  have hp : s.pipeAfterTransfer = s.pipe := by
    unfold Block.pipeAfterTransfer
    split <;> simp_all
  by_cases hn : n = 0
  · simp [State.noteCount, hn]
  · simp only [State.noteCount, State.transferOver, hn, hp, if_false, ne_eq, not_false_eq_true, if_true]

/-- What a block's turn can be. -/
theorem turn_cases (b : Block) :
    (∃ m, b.turn = b.applyMove m) ∨ (b.cfg.transport = .loopback ∧ b.turn = b.loopBack) ∨
      (b.cfg.transport = .silent ∧ b.turn = b) := by
  unfold Block.turn
  split
  · exact .inl ⟨_, rfl⟩
  · exact .inl ⟨_, rfl⟩
  · next h => exact .inr (.inl ⟨h, rfl⟩)
  · next h => exact .inr (.inr ⟨h, rfl⟩)

/-- Changing places twice changes nothing. -/
@[simp] theorem swap_swap (j : Nat) (s : State) : (s.swap j).swap j = s := by
  unfold State.swap
  cases h : s.others[j]? with
  | none => simp [h]
  | some b =>
    obtain ⟨hj, rfl⟩ := List.getElem?_eq_some_iff.1 h
    simp [hj]

/-- What changing places does to a block that is there. -/
theorem swap_eq {j : Nat} {b : Block} (h : s.others[j]? = some b) :
    s.swap j = { s with toBlock := b, others := s.others.set j s.toBlock } := by
  unfold State.swap
  rw [h]

/-- The block at hand, if it satisfies `p`, is where `atBlock` goes. -/
theorem atBlock_here {p : Config.Params → Bool} {k : State → Answer} (h : p s.cfg = true) :
    s.atBlock p k = k s := by
  simp [State.atBlock, h]

/-- Where no block satisfies `p` there is no access (R57). -/
theorem atBlock_nowhere {p : Config.Params → Bool} {k : State → Answer} (h : p s.cfg = false)
    (ho : ∀ b ∈ s.others, p b.cfg = false) : s.atBlock p k = .refused .unmappedAccess := by
  have hn : s.others.findIdx? (fun b => p b.cfg) = none := by simpa [List.findIdx?_eq_none_iff] using ho
  simp [State.atBlock, h, hn]

/-- An access on a block that goes through was made on the block at hand, or on another one in its place. -/
theorem atBlock_eq_next {p : Config.Params → Bool} {k : State → Answer} (h : s.atBlock p k = .next t) :
    (p s.cfg = true ∧ k s = .next t) ∨
      (∃ j b u, p s.cfg = false ∧ s.others[j]? = some b ∧ p b.cfg = true ∧
        (∀ i < j, ∀ c, s.others[i]? = some c → p c.cfg = false) ∧ k (s.swap j) = .next u ∧ t = u.swap j) := by
  unfold State.atBlock at h
  split at h
  · next hp => exact .inl ⟨hp, h⟩
  · next hp =>
    split at h
    · next j hj =>
      obtain ⟨hlt, hpj, hbefore⟩ := List.findIdx?_eq_some_iff_getElem.1 hj
      obtain ⟨u, hu, ht⟩ := onNext_eq_next h
      refine .inr ⟨j, _, u, by simpa using hp, List.getElem?_eq_getElem hlt, hpj, ?_, hu, by simp_all⟩
      intro i hi c hc
      obtain ⟨hil, rfl⟩ := List.getElem?_eq_some_iff.1 hc
      simpa using hbefore i hi
    · cases h

/-- A host that may call has no running session. -/
theorem filter_running_none (h : s.hostFree = true) : s.session.filter (fun σ => !σ.ended) = none := by
  unfold State.hostFree at h
  split at h <;> simp_all

/-- A step is the session's next access on its block, nothing, or the next call on the block it names, after the
pipelines' turn. -/
theorem step_cases (h : step s = .next t) :
    (∃ σ, s.session = some σ ∧ σ.ended = false ∧ s.pipelineTurn.onBlock σ.block (sessionStep σ) = .next t) ∨
      (s.hostFree = true ∧ s.calls = [] ∧ t = s.pipelineTurn) ∨
      (s.hostFree = true ∧ ∃ c rest, s.calls = c :: rest ∧ c.op.wellFormed = true ∧
        (s.pipelineTurn.setCalls rest).onBlock c.block (exec c.op) = .next t) := by
  unfold step at h
  simp only [State.pipelineTurn_session, State.pipelineTurn_calls] at h
  split at h
  · next σ hσ =>
    rw [Option.filter_eq_some_iff] at hσ
    exact .inl ⟨σ, hσ.1, by simpa using hσ.2, h⟩
  · next hn hc =>
    refine .inr (.inl ⟨?_, hc, by simp_all⟩)
    unfold State.hostFree
    split <;> simp_all
  · next hn hc =>
    split at h
    · refine .inr (.inr ⟨?_, _, _, hc, by assumption, h⟩)
      unfold State.hostFree
      split <;> simp_all
    · cases h

end Sys2Proof.Machine
end

