-- ==== Sys2Proof/Laws/PerInstr.lean ====
section
/-! SUPPORT. The statements made operation by operation (LAWS.json `per_instruction`). -/

namespace Sys2Proof.Laws

/-- A record begins with the row of its operation in spec/opcode_table.json, one of 21, and one byte holds it. -/
def RowLeads.Statement (i : Instr) : Prop :=
  1 ≤ i.row ∧ i.row ≤ 21 ∧ (encodeCall i).head?.map BitVec.toNat = some i.row

theorem RowLeads.encode (value : F64) (width frac : Nat) : RowLeads.Statement (.encode value width frac) := by
  simp [RowLeads.Statement, encodeCall, Instr.row]

theorem RowLeads.decode (raw : Word64) (width : Nat) : RowLeads.Statement (.decode raw width) := by
  simp [RowLeads.Statement, encodeCall, Instr.row]

theorem RowLeads.pack (lanes : List Lane) (flag : Bool) : RowLeads.Statement (.pack lanes flag) := by
  simp [RowLeads.Statement, encodeCall, Instr.row]

theorem RowLeads.unpack (raw : Word64) (widths : List Nat) : RowLeads.Statement (.unpack raw widths) := by
  simp [RowLeads.Statement, encodeCall, Instr.row]

theorem RowLeads.flagOf (raw : Word64) (widths : List Nat) : RowLeads.Statement (.flagOf raw widths) := by
  simp [RowLeads.Statement, encodeCall, Instr.row]

theorem RowLeads.toBeats (payload : List Byte) : RowLeads.Statement (.toBeats payload) := by
  simp [RowLeads.Statement, encodeCall, Instr.row]

theorem RowLeads.serPush (byte : Byte) : RowLeads.Statement (.serPush byte) := by
  simp [RowLeads.Statement, encodeCall, Instr.row]

theorem RowLeads.fromBeats (beats : List Beat) : RowLeads.Statement (.fromBeats beats) := by
  simp [RowLeads.Statement, encodeCall, Instr.row]

theorem RowLeads.desPop : RowLeads.Statement .desPop := by
  simp [RowLeads.Statement, encodeCall, Instr.row]

theorem RowLeads.regWr32 (addr : Nat) (value : Word32) : RowLeads.Statement (.regWr32 addr value) := by
  simp [RowLeads.Statement, encodeCall, Instr.row]

theorem RowLeads.regWr64 (addr : Nat) (value : Word64) : RowLeads.Statement (.regWr64 addr value) := by
  simp [RowLeads.Statement, encodeCall, Instr.row]

theorem RowLeads.regRd32 (addr : Nat) : RowLeads.Statement (.regRd32 addr) := by
  simp [RowLeads.Statement, encodeCall, Instr.row]

theorem RowLeads.regRd64 (addr : Nat) : RowLeads.Statement (.regRd64 addr) := by
  simp [RowLeads.Statement, encodeCall, Instr.row]

theorem RowLeads.hdrWrite (header : Header) : RowLeads.Statement (.hdrWrite header) := by
  simp [RowLeads.Statement, encodeCall, Instr.row]

theorem RowLeads.hdrRead : RowLeads.Statement .hdrRead := by
  simp [RowLeads.Statement, encodeCall, Instr.row]

theorem RowLeads.wqPush (beat : Beat) : RowLeads.Statement (.wqPush beat) := by
  simp [RowLeads.Statement, encodeCall, Instr.row]

theorem RowLeads.rqPop : RowLeads.Statement .rqPop := by
  simp [RowLeads.Statement, encodeCall, Instr.row]

theorem RowLeads.enStart : RowLeads.Statement .enStart := by
  simp [RowLeads.Statement, encodeCall, Instr.row]

theorem RowLeads.pollRead : RowLeads.Statement .pollRead := by
  simp [RowLeads.Statement, encodeCall, Instr.row]

theorem RowLeads.sessionRun (txHeader : Header) (payload : List Byte) : RowLeads.Statement (.sessionRun txHeader payload) := by
  simp [RowLeads.Statement, encodeCall, Instr.row]

theorem RowLeads.validate (rxPayload expected : List Byte) : RowLeads.Statement (.validate rxPayload expected) := by
  simp [RowLeads.Statement, encodeCall, Instr.row]

end Sys2Proof.Laws
end

