-- ==== Sys2Proof/Laws/Step.lean ====
section
/-! SUPPORT. What a call and what a step of a session can do to the state, once: every invariant follows from these. -/

namespace Sys2Proof.Machine

variable {s t : State}

theorem Answer.next_inj {a b : State} (h : (.next a : Answer) = .next b) : b = a := by cases h; rfl

/-- A register read takes a beat off `RQ` or notes a count (R171). -/
theorem regRead_effect {w : Config.Width} {addr : Nat} {v : Word64} {u : State}
    (h : s.regRead w addr = some (v, u)) : u = s.popRq.2 ∨ u = s ∨ ∃ n, u = s.noteCount n := by
  unfold State.regRead at h
  split at h
  · next f _ =>
    right
    have hu : u = s.afterHdrRead f := by simpa using (congrArg Prod.snd (Option.some.inj h)).symm
    unfold State.afterHdrRead at hu
    split at hu
    · exact .inr ⟨_, hu⟩
    · exact .inl hu
  · exact .inl (congrArg Prod.snd (Option.some.inj h)).symm
  · exact .inr (.inr ⟨_, (congrArg Prod.snd (Option.some.inj h)).symm⟩)
  · cases h

/-- Reading the header notes a count or nothing. -/
theorem afterHdrRead_effect (f : HField) : s.afterHdrRead f = s ∨ ∃ n, s.afterHdrRead f = s.noteCount n := by
  unfold State.afterHdrRead
  split
  · exact .inr ⟨_, rfl⟩
  · exact .inl rfl

/-- The named update a call makes, before its result is handed back. -/
inductive CallEffect (i : Instr) (s : State) : State → Prop where
  | nothing : CallEffect i s s
  | field (f : HField) (v : Word32) (hi : i = .regWr32 (s.cfg.hdrBase + f.inOffset) v)
      (ho : s.inTransfer = false) : CallEffect i s (s.setHdrIn f v)
  | header (h : Header) (hi : i = .hdrWrite h) (ho : s.inTransfer = false) : CallEffect i s (s.setHeader h)
  | push (b : Beat) (ho : s.inTransfer = false) (hr : s.wqFull = false) : CallEffect i s (s.enqueue b)
  | start (ho : s.inTransfer = false) : CallEffect i s s.started
  | pop : CallEffect i s s.popRq.2
  | note (n : Nat) : CallEffect i s (s.noteCount n)
  | framed (bs : List Beat) : CallEffect i s (s.afterFraming bs)
  | unframed (bs : List Beat) : CallEffect i s (s.afterUnframing bs)
  | byteIn (b : Byte) : CallEffect i s (s.pushByte b)
  | byteOut : CallEffect i s s.popByte
  | session (h : Header) (bs : List Beat) (hf : s.hostFree = true) :
      CallEffect i s ((s.afterFraming bs).setSession (Session.create s.cfg.hdrBase h bs))
  | shape (h : Header) (hf : s.hostFree = true) :
      CallEffect i s (s.setSession { Session.create s.cfg.hdrBase h [] with ended := true })
  | discard : CallEffect i s s.discardEnded

/-- A call that goes through makes one named update on one block, all blocks in their places after it. -/
def Done (i : Instr) (s t : State) : Prop :=
  (∃ r u, CallEffect i s u ∧ t = u.finish r) ∨
    (∃ j b r u, s.hostFree = true ∧ s.others[j]? = some b ∧ CallEffect i (s.swap j) u ∧ t = (u.finish r).swap j)

/-- A register access done on the block that has the address. -/
theorem atBlock_done {i : Instr} {p : Config.Params → Bool} {k : State → Answer} (hf : s.hostFree = true)
    (h : s.atBlock p k = .next t)
    (hk : ∀ {b u : State}, k b = .next u → ∃ r v, CallEffect i b v ∧ u = v.finish r) : Done i s t := by
  obtain ⟨-, h⟩ | ⟨j, b, u, -, hj, -, -, hu, rfl⟩ := atBlock_eq_next h
  · exact .inl (hk h)
  · obtain ⟨r, v, hv, rfl⟩ := hk hu
    exact .inr ⟨j, b, r, v, hf, hj, hv, rfl⟩

/-- A register read, and the result it hands back. -/
theorem regRead_done {i : Instr} {w : Config.Width} {addr : Nat} {f : Word64 → Result} {b u : State}
    (h : (match b.regRead w addr with
      | some (v, t) => (.next (t.finish (f v)) : Answer)
      | none => .refused .unmappedAccess) = .next u) : ∃ r v, CallEffect i b v ∧ u = v.finish r := by
  split at h
  · next hr =>
    rcases regRead_effect hr with rfl | rfl | ⟨n, rfl⟩
    · exact ⟨_, _, .pop, Answer.next_inj h⟩
    · exact ⟨_, _, .nothing, Answer.next_inj h⟩
    · exact ⟨_, _, .note n, Answer.next_inj h⟩
  · cases h

/-- What a call that goes through does, once for all calls. -/
theorem exec_effect {i : Instr} (h : exec i s = .next t) : Done i s t := by
  cases i <;> simp only [exec] at h
  case encode =>
    unfold execEncode at h
    split at h
    · cases h
    · exact .inl ⟨_, s, .nothing, Answer.next_inj h⟩
  case decode =>
    unfold execDecode at h
    split at h
    · cases h
    · exact .inl ⟨_, s, .nothing, Answer.next_inj h⟩
  case pack =>
    unfold execPack at h
    split at h
    · cases h
    split at h
    · cases h
    · exact .inl ⟨_, s, .nothing, Answer.next_inj h⟩
  case unpack =>
    unfold execUnpack at h
    split at h
    · cases h
    split at h
    · cases h
    · exact .inl ⟨_, s, .nothing, Answer.next_inj h⟩
  case flagOf =>
    unfold execFlagOf at h
    split at h
    · cases h
    · exact .inl ⟨_, s, .nothing, Answer.next_inj h⟩
  case toBeats =>
    obtain ⟨-, h⟩ := withBeatOf8_eq_next h
    split at h
    · exact .inl ⟨_, _, .framed _, Answer.next_inj h⟩
    · exact .inl ⟨_, s, .nothing, Answer.next_inj h⟩
  case serPush b => exact .inl ⟨_, _, .byteIn b, Answer.next_inj (withBeatOf8_eq_next h).2⟩
  case fromBeats => exact .inl ⟨_, _, .unframed _, Answer.next_inj (withBeatOf8_eq_next h).2⟩
  case desPop => exact .inl ⟨_, _, .byteOut, Answer.next_inj (withBeatOf8_eq_next h).2⟩
  case regWr32 addr v =>
    obtain ⟨hf, h⟩ := whenHostFree_eq_next h
    refine atBlock_done hf h fun {b u} hu => ?_
    obtain ⟨w, hw, he⟩ := onNext_eq_next hu
    obtain ⟨f, hf, ho, rfl⟩ | ⟨hq, -⟩ | ⟨-, ho, -, rfl⟩ := regWrite_eq_next hw
    · obtain ⟨-, rfl⟩ := writeTarget_hdrIn hf
      exact ⟨.done, _, .field f v rfl ho, by simpa using Answer.next_inj he⟩
    · exact absurd hq (writeTarget_w32_ne_queue _ _)
    · exact ⟨_, _, .start ho, Answer.next_inj he⟩
  case regWr64 addr v =>
    obtain ⟨hf, h⟩ := whenHostFree_eq_next h
    refine atBlock_done hf h fun {b u} hu => ?_
    obtain ⟨w, hw, h⟩ := onNext_eq_next hu
    obtain ⟨f, hf, -⟩ | ⟨-, ho, hr, rfl⟩ | ⟨-, ho, -, rfl⟩ := regWrite_eq_next hw
    · exact absurd (writeTarget_hdrIn hf).1 (by decide)
    · exact ⟨_, _, .push v ho hr, Answer.next_inj h⟩
    · exact ⟨_, _, .start ho, Answer.next_inj h⟩
  case regRd32 =>
    obtain ⟨hf, h⟩ := whenHostFree_eq_next h
    exact atBlock_done hf h regRead_done
  case regRd64 =>
    obtain ⟨hf, h⟩ := whenHostFree_eq_next h
    exact atBlock_done hf h regRead_done
  case hdrWrite hd =>
    obtain ⟨ho, h⟩ := beforeStart_eq_next (whenHostFree_eq_next h).2
    exact .inl ⟨_, _, .header hd rfl ho, Answer.next_inj h⟩
  case hdrRead =>
    have h := Answer.next_inj (whenHostFree_eq_next h).2
    rcases afterHdrRead_effect (s := s) .beatCount with e | ⟨n, e⟩ <;> rw [e] at h
    · exact .inl ⟨_, _, .nothing, h⟩
    · exact .inl ⟨_, _, .note n, h⟩
  case wqPush b =>
    obtain ⟨u, hu, h⟩ := onNext_eq_next (whenHostFree_eq_next h).2
    obtain ⟨ho, hr, rfl⟩ := pushWq_eq_next hu
    exact .inl ⟨_, _, .push b ho hr, Answer.next_inj h⟩
  case rqPop => exact .inl ⟨_, _, .pop, Answer.next_inj (whenHostFree_eq_next h).2⟩
  case enStart =>
    obtain ⟨u, hu, h⟩ := onNext_eq_next (whenHostFree_eq_next h).2
    obtain ⟨ho, rfl⟩ := start_eq_next hu
    exact .inl ⟨_, _, .start ho, Answer.next_inj h⟩
  case pollRead => exact .inl ⟨_, _, .note _, Answer.next_inj (whenHostFree_eq_next h).2⟩
  case sessionRun hd p =>
    obtain ⟨hf, h⟩ := whenHostFree_eq_next h
    have h := (withBeatOf8_eq_next h).2
    split at h
    · exact .inl ⟨_, _, .session hd _ hf, Answer.next_inj h⟩
    · exact .inl ⟨_, _, .shape hd hf, Answer.next_inj h⟩
  case validate => exact .inl ⟨_, _, .discard, Answer.next_inj h⟩

/-- The next access of a running session, state by state (R190 to R195, R200). -/
inductive SessionEffect (σ : Session) (s : State) : State → Prop where
  | header (hσ : σ.state = .idle) (ho : s.inTransfer = false) :
      SessionEffect σ s ((s.setHeader σ.txHeader).setSession { σ with state := .headerSent })
  | push (b : Beat) (rest : List Beat) (hσ : σ.state = .headerSent) (hp : σ.toPush = b :: rest)
      (ho : s.inTransfer = false) (hr : s.wqFull = false) :
      SessionEffect σ s ((s.enqueue b).setSession { σ with toPush := rest })
  | sent (hσ : σ.state = .headerSent) (hp : σ.toPush = []) :
      SessionEffect σ s (s.setSession { σ with state := .payloadSent })
  | start (hσ : σ.state = .payloadSent) (ho : s.inTransfer = false) :
      SessionEffect σ s (s.started.setSession { σ with state := .enabled })
  | poll (hσ : σ.state = .enabled) : SessionEffect σ s (s.setSession { σ with state := .polling })
  | zero (hσ : σ.state = .polling) (hc : σ.count = 0) (hn : s.pollValue = 0) :
      SessionEffect σ s (s.setSession { σ with polls := σ.polls + 1 })
  | timeout (hσ : σ.state = .polling) (hc : σ.count = 0) (hn : s.pollValue = 0) :
      SessionEffect σ s (s.reportTimeout { σ with polls := σ.polls + 1 })
  | counted (hσ : σ.state = .polling) (hc : σ.count = 0) (hn : s.pollValue ≠ 0) :
      SessionEffect σ s
        ((s.noteCount s.pollValue).setSession { σ with polls := σ.polls + 1, count := s.pollValue })
  | report (hσ : σ.state = .polling) (hc : σ.count ≠ 0) (hh : σ.readHeader = none) :
      SessionEffect σ s ((s.afterHdrRead .beatCount).setSession { σ with readHeader := some s.hdrOutView })
  | pop (h : Header) (hσ : σ.state = .polling) (hc : σ.count ≠ 0) (hh : σ.readHeader = some h)
      (hl : σ.readBeats.length < σ.count) :
      SessionEffect σ s (s.popRq.2.setSession { σ with readBeats := σ.readBeats ++ [s.popRq.1] })
  | complete (h : Header) (hσ : σ.state = .polling) (hc : σ.count ≠ 0) (hh : σ.readHeader = some h)
      (hl : σ.count ≤ σ.readBeats.length) :
      SessionEffect σ s
        (((s.afterUnframing σ.readBeats).setSession
          { σ with state := .completed, ended := true, rxHeader := some h, rxBeats := σ.readBeats }).finish
            (.transfer h (unframeBeats s.cfg.desOrder σ.readBeats)))
  | completed (hσ : σ.state = .completed) : SessionEffect σ s (s.setSession { σ with ended := true })

/-- A step of a session is one of them. -/
theorem sessionStep_effect {σ : Session} (h : sessionStep σ s = .next t) : SessionEffect σ s t := by
  unfold sessionStep at h
  split at h
  · next hσ =>
    obtain ⟨ho, h⟩ := beforeStart_eq_next h
    exact Answer.next_inj h ▸ .header hσ ho
  · next hσ =>
    split at h
    · next hp => exact Answer.next_inj h ▸ .sent hσ hp
    · next b rest hp =>
      obtain ⟨u, hu, h⟩ := onNext_eq_next h
      obtain ⟨ho, hr, rfl⟩ := pushWq_eq_next hu
      exact Answer.next_inj h ▸ .push b rest hσ hp ho hr
  · next hσ =>
    obtain ⟨u, hu, h⟩ := onNext_eq_next h
    obtain ⟨ho, rfl⟩ := start_eq_next hu
    exact Answer.next_inj h ▸ .start hσ ho
  · next hσ => exact Answer.next_inj h ▸ .poll hσ
  · next hσ =>
    have h := Answer.next_inj h
    split at h
    · next hc =>
      unfold pollStep at h
      by_cases hn : s.pollValue = 0
      · by_cases hl : s.pollLimitReached (σ.polls + 1) = true
        · simp only [hn, hl, and_self, if_true] at h
          exact h ▸ (by simpa [← hc] using SessionEffect.timeout (s := s) hσ hc hn)
        · rw [if_neg (fun e => hl e.2)] at h
          exact h ▸ (by simpa [State.noteCount, hn, ← hc] using SessionEffect.zero (s := s) hσ hc hn)
      · simp only [hn, false_and, if_false] at h
        exact h ▸ .counted hσ hc hn
    · next hc =>
      unfold receiveStep at h
      split at h
      · next hh => exact h ▸ .report hσ hc hh
      · next hd hh =>
        split at h
        · next hl => exact h ▸ .pop hd hσ hc hh hl
        · next hl => exact h ▸ .complete hd hσ hc hh (Nat.le_of_not_lt hl)
  · next hσ => exact Answer.next_inj h ▸ .completed hσ

end Sys2Proof.Machine
end

