-- ==== Sys2Proof/Tests/Slice0.lean ====
section
/-! SUPPORT. Tests: well-formedness, decoding, one-step vectors of spec/95_test_vectors.md, and a witness for the
hypotheses of every obligation. Expected values are the spec's vectors (named in the comments), never the model's. -/

namespace Sys2Proof.Tests

open Sys2Proof Sys2Proof.Machine

/-! ### Helpers -/

/-- What `f` reads off the next state. -/
def after {β : Type} (a : Answer) (f : State → β) : Option β :=
  match a with
  | .next s => some (f s)
  | .fault _ => none
  | .refused _ => none

/-- Why a call was refused. -/
def refusal (a : Answer) : Option Refusal :=
  match a with
  | .next _ => none
  | .fault _ => none
  | .refused r => some r

/-- The fault a call ended in. -/
def faultOf (a : Answer) : Option Fault :=
  match a with
  | .next _ => none
  | .fault f => some f
  | .refused _ => none

/-- The state after reset, configured. -/
def configured (f : Config.Params → Config.Params) : State := { State.reset with cfg := f State.reset.cfg }

/-- Both byte orders `MSB_FIRST`. -/
def msb : State := configured fun c => { c with serOrder := .msbFirst, desOrder := .msbFirst }

/-- Serializer `MSB_FIRST`, deserializer `LSB_FIRST` (P4). -/
def mixed : State := configured fun c => { c with serOrder := .msbFirst }

/-- `CTRL_WIDTH = 64`. -/
def wide : State := configured fun c => { c with ctrlWidth := .w64 }

/-- `POLL_ADDR = HDR_BASE + 0x24`. -/
def pollsHeader : State := configured fun c => { c with pollAt := .hdrOut0 }

/-- A write queue of one beat. -/
def oneDeep : State := configured fun c => { c with queueDepth := some 1 }

/-- A beat of 4 bytes, which the block refuses. -/
def fourByte : State := configured fun c => { c with bytesPerBeat := 4 }

/-- `MIRROR_MOCK` with loopback (D32). -/
def loop : State := configured fun c => { c with transport := .loopback }

/-- The mock of P5, unbounded. -/
def mute : State := configured fun c => { c with transport := .silent }

/-- The mock of P5 with `POLL_LIMIT = 3`. -/
def muteLimited : State :=
  configured fun c => { c with transport := .silent, pollLimit := some 3, pollAt := .hdrOut0 }

/-- The header of V-HDR 1. -/
def sampleHeader : Header := ⟨6, 1, 1, 1, 4, 8, 0⟩

/-- A session in a given state, one beat of payload. -/
def sessionIn (state : SessionState) (toPush : List Beat) : Session :=
  ⟨state, false, 0x1000, sampleHeader, [0x0909090909090909], toPush, 0, 0, none, [], none, []⟩

/-- A session in `Polling` that was told 2 beats. -/
def receiving (readHeader : Option Header) (readBeats : List Beat) : Session :=
  ⟨.polling, false, 0x1000, sampleHeader, [], [], 1, 2, readHeader, readBeats, none, []⟩

/-- The host inside the session `σ`. -/
def inside (σ : Session) (s : State) : State := { s with session := some σ }

/-- A second block, 0x1000 above the first, with two beats to read. -/
def secondBlock : Block :=
  { State.reset.toBlock with
    cfg := { State.reset.cfg with
      hdrBase := 0x3000, wqAddr := 0x4000, wcountAddr := 0x4008, rqAddr := 0x4010, rcountAddr := 0x4018,
      enableAddr := 0x4020 },
    rq := [7, 8] }

/-- A platform of two blocks (R220). -/
def twoBlocks : State := { State.reset with others := [secondBlock] }

/-- An enabled session in `Polling` before a pipeline that never answers. -/
def waiting : State := inside (sessionIn .polling []) { mute with processing := true, inTransfer := true }

/-! ### Well-formedness: an ill-formed term for each check -/

theorem test_encode_frac_256_is_ill_formed : (Instr.encode 0 8 256).wellFormed = false := by decide
theorem test_encode_frac_255_is_well_formed : (Instr.encode 0 8 255).wellFormed = true := by decide
theorem test_pack_frac_256_is_ill_formed : (Instr.pack [⟨0, 8, 0⟩, ⟨0, 8, 256⟩] true).wellFormed = false := by decide
theorem test_step_refuses_ill_formed :
    refusal (step { mute with calls := [⟨0x1000, .encode 0 8 256⟩] }) = some .illFormed := by decide

/-! ### Records, one for each constructor, written out by hand from the form in Decode.lean -/

/-- 3.5 is `0x400C000000000000`. -/
theorem test_record_encode :
    decodeCall [1, 0, 0, 0, 0, 0, 0, 0x0C, 0x40, 8, 6] = .ok (.encode 0x400C000000000000 8 6, []) := by rfl
theorem test_record_decode : decodeCall [2, 0xE0, 0xAB, 0, 0, 0, 0, 0, 0, 8] = .ok (.decode 0xABE0 8, []) := by rfl
theorem test_record_pack :
    decodeCall [3, 2, 0, 0, 0, 0, 0, 0, 0xF0, 0x3F, 8, 6, 0, 0, 0, 0, 0, 0, 0xF0, 0xBF, 16, 14, 1] =
      .ok (.pack [⟨0x3FF0000000000000, 8, 6⟩, ⟨0xBFF0000000000000, 16, 14⟩] true, []) := by rfl
theorem test_record_unpack :
    decodeCall [4, 0, 0x10, 0xE0, 0x40, 1, 0, 0, 0, 3, 8, 8, 16] =
      .ok (.unpack 0x0000000140E01000 [8, 8, 16], []) := by rfl
theorem test_record_flagOf :
    decodeCall [5, 0, 0x10, 0xE0, 0x40, 1, 0, 0, 0, 1, 0x80, 1] =
      .ok (.flagOf 0x0000000140E01000 [128], []) := by rfl
theorem test_record_toBeats : decodeCall [6, 3, 1, 2, 3] = .ok (.toBeats [1, 2, 3], []) := by rfl
theorem test_record_serPush : decodeCall [7, 0xAB] = .ok (.serPush 0xAB, []) := by rfl
theorem test_record_fromBeats :
    decodeCall [8, 1, 0xEF, 0xCD, 0xAB, 0x89, 0x67, 0x45, 0x23, 0x01] =
      .ok (.fromBeats [0x0123456789ABCDEF], []) := by rfl
theorem test_record_desPop : decodeCall [9] = .ok (.desPop, []) := by rfl
theorem test_record_regWr32 : decodeCall [10, 0x84, 0x20, 6, 0, 0, 0] = .ok (.regWr32 0x1004 6, []) := by rfl
theorem test_record_regWr64 :
    decodeCall [11, 0x80, 0x40, 1, 2, 3, 4, 5, 6, 7, 8] = .ok (.regWr64 0x2000 0x0807060504030201, []) := by rfl
theorem test_record_regRd32 : decodeCall [12, 0xA4, 0x20] = .ok (.regRd32 0x1024, []) := by rfl
theorem test_record_regRd64 : decodeCall [13, 0x90, 0x40] = .ok (.regRd64 0x2010, []) := by rfl
theorem test_record_hdrWrite :
    decodeCall [14, 6, 0, 0, 0, 1, 0, 0, 0, 1, 0, 0, 0, 1, 0, 0, 0, 4, 0, 0, 0, 8, 0, 0, 0, 0, 0, 0, 0] =
      .ok (.hdrWrite sampleHeader, []) := by rfl
theorem test_record_hdrRead : decodeCall [15] = .ok (.hdrRead, []) := by rfl
theorem test_record_wqPush :
    decodeCall [16, 1, 2, 3, 4, 5, 6, 7, 8] = .ok (.wqPush 0x0807060504030201, []) := by rfl
theorem test_record_rqPop : decodeCall [17] = .ok (.rqPop, []) := by rfl
theorem test_record_enStart : decodeCall [18] = .ok (.enStart, []) := by rfl
theorem test_record_pollRead : decodeCall [19] = .ok (.pollRead, []) := by rfl
theorem test_record_sessionRun :
    decodeCall [20, 1, 0, 0, 0, 0, 0, 0, 0, 0, 0, 0, 0, 0, 0, 0, 0, 0, 0, 0, 0, 0, 0, 0, 0, 0, 0, 0, 0, 2, 9, 9] =
      .ok (.sessionRun ⟨1, 0, 0, 0, 0, 0, 0⟩ [9, 9], []) := by rfl
theorem test_record_validate : decodeCall [21, 1, 5, 2, 5, 6] = .ok (.validate [5] [5, 6], []) := by rfl
theorem test_record_rejected_by_name :
    decodeCall [0] = .error (.unknownOperation 0) ∧ decodeCall [22] = .error (.unknownOperation 22) ∧
    decodeCall [3, 0, 2] = .error (.badFlag 2) ∧ decodeCall [2, 1] = .error .truncated := ⟨rfl, rfl, rfl, rfl⟩

/-- The first operation after reset is the one placed. -/
theorem test_placed_record_runs :
    decodeTableWord 8 9 = some .desPop ∧
    after (step (State.reset.withFetchWord 16 0x0A07)) State.result = some .done ∧
    after (step (State.reset.withFetchWord 16 0x0A07)) State.serAcc = some 0x0A00000000000000 :=
  ⟨rfl, rfl, rfl⟩

/-! ### Data words, bit by bit (R83, R84), and the vectors of spec/95_test_vectors.md Part 2 -/

/-- V-ENC 1: wraps. -/
theorem test_encode_wraps :
    after (exec (.encode 0x400C000000000000 8 6) State.reset) State.result = some (.u64 0xE0) := by decide
/-- V-ENC 16: -0.1, negative, truncated toward zero. -/
theorem test_encode_negative :
    after (exec (.encode 0xBFB999999999999A 16 14) State.reset) State.result = some (.u64 0xF99A) := by decide
/-- V-ENC 8, 21, 23, 19: toward zero, the lowest target, a large `F`, `W = 0`. -/
theorem test_encode_corners :
    encodeField 0xBF847AE147AE147B 8 6 = 0 ∧ encodeField 0xC3E0000000000000 64 0 = 0x8000000000000000 ∧
    encodeField 0xBFF0000000000000 64 63 = 0x8000000000000000 ∧ encodeField 0x400C000000000000 0 6 = 0 := by decide
/-- V-ENC 29, 30: outside the domain. V-ENC 31: refused. -/
theorem test_encode_outside_domain :
    inEncodeDomain 0x3FF0000000000000 63 = false ∧ inEncodeDomain 0x7FF8000000000000 6 = false ∧
    inEncodeDomain 0x7FF0000000000000 6 = false ∧
    refusal (exec (.encode 0x3FF0000000000000 65 0) State.reset) = some .badWidth := by decide
/-- `EncodeOverflows` of V-ENC 7 and 6. -/
theorem test_encode_overflows :
    encodeOverflows 0x4000000000000000 8 6 = true ∧ encodeOverflows 0xC000000000000000 8 6 = false := by decide

/-- V-DEC 2: bits above the field are ignored; -32. -/
theorem test_decode_upper_bits :
    after (exec (.decode 0xABE0 8) State.reset) State.result = some (.i64 (BitVec.ofInt 64 (-32))) := by decide
/-- V-DEC 7, 9, 12, 16, 17, 21. -/
theorem test_decode_corners :
    (decodeField 1 1).toInt = -1 ∧ (decodeField 3 1).toInt = -1 ∧
    (decodeField 0x7FFFFFFFFFFFFFFF 64).toInt = 9223372036854775807 ∧
    (decodeField 0x4000000000000000 63).toInt = -4611686018427387904 ∧
    (decodeField 0x8000000000000000 63).toInt = 0 ∧
    refusal (exec (.decode 5 0) State.reset) = some .badWidth ∧
    refusal (exec (.decode 5 65) State.reset) = some .badWidth := by decide

/-- V-PACK 11 and P1: flag, lane 0, lane 1, lane 2 from bit 32 down. -/
theorem test_pack_bits :
    after (exec (.pack [⟨0x3FE36E9DB5073350, 10, 8⟩, ⟨0, 10, 8⟩, ⟨0x3FE921FB540D8D20, 12, 10⟩] true) State.reset)
      State.result = some (.u64 0b100100110110000000000001100100100) := by decide
/-- V-PACK 15, 18, 19: 63 bits and the flag; too wide; a lane of 64. -/
theorem test_pack_corners :
    after (exec (.pack [⟨0xBFF0000000000000, 63, 0⟩] true) State.reset) State.result =
      some (.u64 0xFFFFFFFFFFFFFFFF) ∧
    refusal (exec (.pack [⟨0, 32, 0⟩, ⟨0, 32, 0⟩] false) State.reset) = some .layoutTooWide ∧
    refusal (exec (.pack [⟨0, 64, 0⟩] false) State.reset) = some .badWidth := by decide

/-- V-PACK 13 and P1: 155, 0, 804. -/
theorem test_unpack_bits :
    after (exec (.unpack 0b100100110110000000000001100100100 [10, 10, 12]) State.reset) State.result =
      some (.i64s [155, 0, 804]) := by decide
/-- V-PACK 4, 20: the flag listed as a field reads -1; too wide. -/
theorem test_unpack_corners :
    after (exec (.unpack 0x0000000140E01000 [1, 8, 8, 16]) State.reset) State.result =
      some (.i64s [BitVec.ofInt 64 (-1), 64, BitVec.ofInt 64 (-32), 4096]) ∧
    refusal (exec (.unpack 0 [32, 33]) State.reset) = some .layoutTooWide := by decide

/-- V-PACK 6. -/
theorem test_flagOf :
    after (exec (.flagOf 0x0000000140E01000 [8, 8, 16]) State.reset) State.result = some (.flag true) ∧
    after (exec (.flagOf 0x0000000040E01000 [8, 8, 16]) State.reset) State.result = some (.flag false) := by decide
/-- R121: `S = 63` is the last position, 64 is refused. -/
theorem test_flagOf_corners :
    after (exec (.flagOf 0x8000000000000000 [63]) State.reset) State.result = some (.flag true) ∧
    refusal (exec (.flagOf 0 [64]) State.reset) = some .layoutTooWide := by decide

/-- V-BEAT 1, both orders. -/
theorem test_toBeats_orders :
    after (exec (.toBeats [1, 2, 3, 4, 5, 6, 7, 8]) State.reset) State.result =
      some (.beats [0x0807060504030201]) ∧
    after (exec (.toBeats [1, 2, 3, 4, 5, 6, 7, 8]) msb) State.result = some (.beats [0x0102030405060708]) := by
  decide
/-- V-BEAT 6, 7. -/
theorem test_toBeats_lengths :
    after (exec (.toBeats []) State.reset) State.result = some (.beats []) ∧
    after (exec (.toBeats [1, 2, 3]) State.reset) State.result = some (.shapeError 3) := by decide

/-- The SER.PUSH traces: the second push of each. -/
theorem test_serPush_orders :
    after (exec (.serPush 2) { State.reset with serAcc := 0x0100000000000000, serCnt := 1 }) State.serAcc =
      some 0x0201000000000000 ∧
    after (exec (.serPush 2) { msb with serAcc := 1, serCnt := 1 }) State.serAcc = some 0x0102 := by decide

/-- V-BEAT 4, both orders. -/
theorem test_fromBeats_orders :
    after (exec (.fromBeats [0x0123456789ABCDEF]) State.reset) State.result =
      some (.bytes [0xEF, 0xCD, 0xAB, 0x89, 0x67, 0x45, 0x23, 0x01]) ∧
    after (exec (.fromBeats [0x0123456789ABCDEF]) msb) State.result =
      some (.bytes [0x01, 0x23, 0x45, 0x67, 0x89, 0xAB, 0xCD, 0xEF]) := by decide

/-- The DES.POP trace: the first pop. -/
theorem test_desPop :
    after (exec .desPop { State.reset with desShr := 0x0123456789ABCDEF }) State.result = some (.u8 0xEF) ∧
    after (exec .desPop { State.reset with desShr := 0x0123456789ABCDEF }) State.desShr =
      some 0x000123456789ABCD := by decide

/-- R170's example, `HDR_BASE + 0x0c` (R61), and V-HDR 4. -/
theorem test_regWr32 :
    after (exec (.regWr32 0x1004 6) State.reset) (·.hdrIn) = some ⟨6, 0, 0, 0, 0, 0, 0⟩ ∧
    after (exec (.regWr32 0x100C 7) State.reset) (·.hdrIn) = some ⟨0, 7, 0, 0, 0, 0, 0⟩ ∧
    refusal (exec (.regWr32 0x1024 1) State.reset) = some .unmappedAccess ∧
    refusal (exec (.regWr32 0x2020 2) State.reset) = some .unmappedAccess := by decide
/-- V-HDR 5, and a 64-bit write at a 32-bit register. -/
theorem test_regWr64 :
    after (exec (.regWr64 0x2000 0x0807060504030201) State.reset) (·.wq) = some [0x0807060504030201] ∧
    refusal (exec (.regWr64 0x1004 1) State.reset) = some .unmappedAccess ∧
    faultOf (exec (.regWr64 0x2000 1) { oneDeep with wq := [5] }) = some .writeQueueFull := by decide
/-- R171's example, and V-HDR 4. -/
theorem test_regRd32 :
    after (exec (.regRd32 0x1024) { State.reset with hdrOut := sampleHeader }) State.result = some (.u32 6) ∧
    refusal (exec (.regRd32 0x1004) State.reset) = some .unmappedAccess ∧
    refusal (exec (.regRd32 0x1008) State.reset) = some .unmappedAccess := by decide
/-- R171: the head of `RQ`, removed; V-HDR 4. -/
theorem test_regRd64 :
    after (exec (.regRd64 0x2010) { State.reset with rq := [7, 8] }) (fun t => (t.result, t.rq)) =
      some (.u64 7, [8]) ∧
    refusal (exec (.regRd64 0x1024) State.reset) = some .unmappedAccess := by decide

/-- V-HDR 1, 3. -/
theorem test_hdrWrite :
    after (exec (.hdrWrite sampleHeader) State.reset) (·.hdrIn) = some sampleHeader ∧
    after (exec (.hdrWrite ⟨0xFFFFFFFF, 7, 0, 2, 0, 0, 0⟩) State.reset) (·.hdrIn) =
      some ⟨0xFFFFFFFF, 7, 0, 2, 0, 0, 0⟩ := by decide
/-- V-HDR 2. -/
theorem test_hdrRead :
    after (exec .hdrRead { State.reset with hdrOut := sampleHeader }) State.result = some (.header sampleHeader) := by
  decide
/-- R174: appended at the end; stuck on a full queue. -/
theorem test_wqPush :
    after (exec (.wqPush 2) { State.reset with wq := [1] }) (·.wq) = some [1, 2] ∧
    faultOf (exec (.wqPush 2) { oneDeep with wq := [1] }) = some .writeQueueFull := by decide
/-- R175: the head, removed; an empty queue stays empty. -/
theorem test_rqPop :
    after (exec .rqPop { State.reset with rq := [7, 8] }) (fun t => (t.result, t.rq)) = some (.u64 7, [8]) ∧
    after (exec .rqPop State.reset) (·.rq) = some [] := by decide
/-- R176: 1 to `ENABLE`; a second start has no meaning. -/
theorem test_enStart :
    after (exec .enStart State.reset) (fun t => (t.enable, t.processing)) = some (1, true) ∧
    refusal (exec .enStart { State.reset with inTransfer := true }) = some .outOfOrder := by decide
/-- R177: the count, from either poll register. -/
theorem test_pollRead :
    after (exec .pollRead { State.reset with rcount := 8 }) State.result = some (.count 8) ∧
    after (exec .pollRead { pollsHeader with rcount := 8, hdrOut := sampleHeader }) State.result =
      some (.count 6) := by decide
/-- P6: the shape report comes before any access. -/
theorem test_sessionRun_shape :
    after (exec (.sessionRun sampleHeader [1, 2, 3, 4, 5, 6, 7, 8, 9]) State.reset)
      (fun t => (t.result, t.session.map Session.state, t.hdrIn)) =
      some (.shapeError 9, some .idle, zeroHeader) := by decide
/-- P5: the third poll of a bounded session that reads 0. -/
theorem test_sessionRun_timeout :
    after (step { muteLimited with session := some { sessionIn .polling [] with polls := 2 } })
      (fun t => (t.result, t.session.map Session.state)) = some (.timeout 3, some .polling) := by decide
/-- V-VAL 2, 3. -/
theorem test_validate :
    after (exec (.validate [1, 9, 3, 4] [1, 2, 3, 7]) State.reset) State.result =
      some (.comparison false 2 [1, 3]) ∧
    after (exec (.validate [1, 2, 3] [1, 2, 3, 4, 5]) State.reset) State.result =
      some (.comparison false 2 [3, 4]) := by decide
/-- V-VAL 5. -/
theorem test_validate_empty :
    after (exec (.validate [] []) State.reset) State.result = some (.comparison true 0 []) := by decide

/-! ### Two blocks (R198, R220), the pipeline's run (R221), and what a session holds (R38) -/

/-- A read at the second block's `RQ_ADDR` takes its head; the first block keeps its place. -/
theorem test_access_reaches_second_block :
    after (exec (.regRd64 0x4010) twoBlocks) (fun t => (t.result, t.cfg.hdrBase, t.others.map (·.rq))) =
      some (.u64 7, 0x1000, [[8]]) ∧
    refusal (exec (.regRd64 0x5010) twoBlocks) = some .unmappedAccess := by decide

/-- A call made with the second block's parameters. -/
theorem test_call_on_second_block :
    after ((twoBlocks.onBlock 0x3000) (exec (.hdrWrite sampleHeader)))
      (fun t => (t.hdrIn, t.others.map (·.hdrIn))) = some (zeroHeader, [sampleHeader]) := by decide

/-- R221: the non-zero poll ends the pipeline's run, a zero does not. -/
theorem test_poll_ends_the_run :
    after (exec .pollRead { State.reset with rcount := 8, processing := true, inTransfer := true })
      (fun t => (t.processing, t.inTransfer)) = some (false, false) ∧
    after (exec .pollRead { State.reset with processing := true, inTransfer := true })
      (fun t => (t.processing, t.inTransfer)) = some (true, true) := by decide

/-- R38: `rxHeader` and `rxBeats` are empty in `Polling` and filled in `Completed`. -/
theorem test_received_only_when_completed :
    after (step (inside (receiving (some sampleHeader) [7]) { mute with rq := [8] }))
      (fun t => t.session.map fun σ => (σ.state, σ.rxHeader, σ.rxBeats)) = some (some (.polling, none, [])) ∧
    after (step (inside (receiving (some sampleHeader) [7, 8]) mute))
      (fun t => t.session.map fun σ => (σ.state, σ.rxHeader, σ.rxBeats)) =
      some (some (.completed, some sampleHeader, [7, 8])) := by decide

/-! ### Witnesses: for every obligation with hypotheses, concrete operands and a state that meet them, each clause at
the edges of its range -/

/-- The domain of R111 at 3.5, at its lowest target -2^63, at both zeros; not at 2^63. -/
theorem witness_EncodeMasksExactTruncation :
    EncodeDomain 0x400C000000000000 6 ∧ EncodeDomain 0xC3E0000000000000 0 ∧ EncodeDomain 0x8000000000000000 255 ∧
    EncodeDomain 0 0 ∧ ¬EncodeDomain 0x3FF0000000000000 63 ∧
    refusal (exec (.encode 0 65 0) State.reset) = some .badWidth ∧
    after (exec (.encode 0xBFF0000000000000 64 0) State.reset) State.result = some (.u64 0xFFFFFFFFFFFFFFFF) := by
  simp only [encodeDomain_iff]
  decide

theorem witness_DecodeSignExtendsLowBits :
    refusal (exec (.decode 5 0) State.reset) = some .badWidth ∧
    refusal (exec (.decode 5 65) State.reset) = some .badWidth ∧
    after (exec (.decode 1 1) State.reset) State.result = some (.i64 (BitVec.ofInt 64 (-1))) ∧
    after (exec (.decode 0x8000000000000000 64) State.reset) State.result =
      some (.i64 (BitVec.ofInt 64 (-9223372036854775808))) := by decide

/-- A target that wraps (224 in 8 bits), and the widths 1 and 64. -/
theorem witness_DecodeAfterEncodeWraps :
    (1 ≤ 8 ∧ 8 ≤ 64 ∧ EncodeDomain 0x400C000000000000 6) ∧ (1 ≤ 1 ∧ EncodeDomain 0xBFF0000000000000 0) ∧
    (64 ≤ 64 ∧ EncodeDomain 0xC3E0000000000000 0) := by
  simp only [encodeDomain_iff]
  decide

/-- V-ENC 5 and 6: the largest and the smallest target that fit 8 bits. -/
theorem witness_RecoveredValueWithinOneLsb :
    (EncodeDomain 0x3FFFC00000000000 6 ∧ encodeTarget 0x3FFFC00000000000 6 = 2 ^ (8 - 1) - 1) ∧
    (EncodeDomain 0xC000000000000000 6 ∧ encodeTarget 0xC000000000000000 6 = -2 ^ (8 - 1)) := by
  simp only [encodeDomain_iff, encodeTarget_eq_truncScaled]
  decide

/-- Layouts A, B, the empty one, one of 63 bits; lanes of 0 and 64; one bit too many. -/
theorem witness_PackPlacesFlagAndLanes :
    LayoutValid [8, 8, 16] ∧ LayoutValid [21, 21, 21] ∧ LayoutValid [] ∧ LayoutValid [63] ∧
    refusal (exec (.pack [⟨0, 8, 0⟩, ⟨0, 0, 0⟩] true) State.reset) = some .badWidth ∧
    refusal (exec (.pack [⟨0, 64, 0⟩] true) State.reset) = some .badWidth ∧
    refusal (exec (.pack [⟨0, 32, 0⟩, ⟨0, 32, 0⟩] true) State.reset) = some .layoutTooWide := by decide

theorem witness_UnpackDecodesEachField :
    (∀ w ∈ [64], 1 ≤ w ∧ w ≤ 64) ∧ [64].sum ≤ 64 ∧ (∀ w ∈ [32, 33], 1 ≤ w ∧ w ≤ 64) ∧ 64 < [32, 33].sum ∧
    refusal (exec (.unpack 0 [0]) State.reset) = some .badWidth ∧
    refusal (exec (.unpack 0 [65]) State.reset) = some .badWidth ∧
    after (exec (.unpack 0x1234 []) State.reset) State.result = some (.i64s []) := by decide

theorem witness_OneBitFieldIsZeroOrMinusOne :
    (∀ w ∈ [8, 8, 16], 1 ≤ w ∧ w ≤ 64) ∧ [8, 8, 16].sum ≤ 63 ∧ (∀ w ∈ [63], 1 ≤ w ∧ w ≤ 64) ∧ [63].sum ≤ 63 := by
  decide

/-- The lanes of V-PACK 1. -/
theorem witness_UnpackAfterPack :
    LayoutValid ([⟨0x3FF0000000000000, 8, 6⟩, ⟨0xBFE0000000000000, 8, 6⟩, ⟨0x3FD0000000000000, 16, 14⟩].map Lane.width) ∧
    ∀ l ∈ [Lane.mk 0x3FF0000000000000 8 6, ⟨0xBFE0000000000000, 8, 6⟩, ⟨0x3FD0000000000000, 16, 14⟩],
      EncodeDomain l.value l.frac := by
  simp only [encodeDomain_iff]
  decide

/-- A word of one field, -1, and the flag. -/
theorem witness_PackAfterUnpack :
    LayoutValid ([Lane.mk 0xBFF0000000000000 1 0].map Lane.width) ∧
    after (exec (.unpack 3 [1]) State.reset) State.result = some (.i64s [0xFFFFFFFFFFFFFFFF]) ∧
    after (exec (.flagOf 3 [1]) State.reset) State.result = some (.flag true) ∧
    F64.finite 0xBFF0000000000000 = true ∧
    ratValue 0xBFF0000000000000 = (0xFFFFFFFFFFFFFFFF : Word64).toInt := by
  refine ⟨by decide, by decide, by decide, by decide, ?_⟩
  have hn : F64.negative 0xBFF0000000000000 = true := by decide
  have he : F64.exponentBits 0xBFF0000000000000 = 1023 := by decide
  have hf : F64.fractionBits 0xBFF0000000000000 = 0 := by decide
  have hi : (0xFFFFFFFFFFFFFFFF : Word64).toInt = -1 := by decide
  rw [ratValue, hn, he, hf, hi]
  norm_num

theorem witness_CodecIsFunctionOfOperands :
    Codec (.decode 0xE0 8) ∧ (after (exec (.decode 0xE0 8) State.reset) State.result).isSome = true :=
  ⟨trivial, rfl⟩

theorem witness_ToBeatsPlacesEveryByte :
    State.reset.cfg.bytesPerBeat = 8 ∧ [(1 : Byte), 2, 3].length % 8 ≠ 0 ∧ ([] : List Byte).length % 8 = 0 ∧
    [(1 : Byte), 2, 3, 4, 5, 6, 7, 8].length % 8 = 0 := by decide

theorem witness_SerPushShiftsByteIn :
    State.reset.cfg.bytesPerBeat = 8 ∧ State.reset.serCnt < 8 ∧ { msb with serCnt := 7 }.serCnt < 8 := by decide

theorem witness_SerPushOnCompleteBeatBeginsGroup :
    State.reset.cfg.bytesPerBeat = 8 ∧ 8 ≤ { State.reset with serCnt := 8 }.serCnt := by decide

theorem witness_BeatIndependentOfStartingAccumulator :
    State.reset.cfg.bytesPerBeat = 8 ∧ State.reset.serCnt = 0 ∧ [(1 : Byte), 2, 3, 4, 5, 6, 7, 8].length = 8 := by
  decide

theorem witness_FromBeatsEmitsEveryByte : State.reset.cfg.bytesPerBeat = 8 ∧ msb.cfg.bytesPerBeat = 8 := by decide

theorem witness_DesPopShiftsByteOut :
    State.reset.cfg.bytesPerBeat = 8 ∧ State.reset.desCnt < 8 ∧ { msb with desCnt := 7 }.desCnt < 8 := by decide

theorem witness_DesPopBeyondBeatIsOpen :
    State.reset.cfg.bytesPerBeat = 8 ∧ 8 ≤ { State.reset with desCnt := 8 }.desCnt := by decide

theorem witness_EightPopsEmptyTheBeat : State.reset.cfg.bytesPerBeat = 8 ∧ msb.cfg.bytesPerBeat = 8 := by decide

theorem witness_FramingRoundTrips :
    State.reset.cfg.serOrder = State.reset.cfg.desOrder ∧ msb.cfg.serOrder = msb.cfg.desOrder ∧
    State.reset.cfg.bytesPerBeat = 8 ∧ msb.cfg.bytesPerBeat = 8 := by decide

theorem witness_MixedOrdersReverseGroups :
    mixed.cfg.bytesPerBeat = 8 ∧ mixed.cfg.serOrder ≠ mixed.cfg.desOrder ∧ (List.replicate 16 (3 : Byte)).length % 8 = 0 := by
  decide

theorem witness_OtherBeatSizesRefused : fourByte.cfg.bytesPerBeat ≠ 8 ∧ fourByte.hostFree = true := by decide

/-- Both control widths, an address for every clause, and a full and an empty queue. -/
theorem witness_RegisterWritesReachTheirRegister :
    (ConfigValid State.reset.cfg ∧ HostMayAccess State.reset) ∧ (ConfigValid wide.cfg ∧ HostMayAccess wide) ∧
    (ConfigValid oneDeep.cfg ∧ HostMayAccess oneDeep) ∧
    0x1020 = State.reset.cfg.hdrBase + HField.eccPadBytes.inOffset ∧
    (0x2020 = State.reset.cfg.enableAddr ∧ State.reset.cfg.ctrlWidth = .w32) ∧
    (0x2020 = wide.cfg.enableAddr ∧ wide.cfg.ctrlWidth = .w64) ∧
    (∀ c ∈ twoBlocks.blocks, (∀ f ∈ HField.all, 0x1024 ≠ c.cfg.hdrBase + f.inOffset) ∧ 0x1024 ≠ c.cfg.enableAddr) ∧
    0x2000 = State.reset.cfg.wqAddr ∧ (∀ c ∈ twoBlocks.blocks, 0x2001 ≠ c.cfg.wqAddr ∧ 0x2001 ≠ c.cfg.enableAddr) ∧
    { oneDeep with wq := [5] }.wqFull = true ∧ oneDeep.wqFull = false := by decide

theorem witness_RegisterReadsReachTheirRegister :
    (ConfigValid State.reset.cfg ∧ State.reset.hostFree = true ∧ State.reset.cfg.transport = .hardware) ∧
    (ConfigValid wide.cfg ∧ wide.hostFree = true ∧ wide.cfg.transport = .hardware) ∧
    0x103C = State.reset.cfg.hdrBase + HField.eccPadBytes.outOffset ∧
    (0x2018 = State.reset.cfg.rcountAddr ∧ State.reset.cfg.pollAt = .rcount ∧ State.reset.cfg.ctrlWidth = .w32) ∧
    (0x2018 = wide.cfg.rcountAddr ∧ wide.cfg.pollAt = .rcount ∧ wide.cfg.ctrlWidth = .w64) ∧
    (∀ c ∈ twoBlocks.blocks, (∀ f ∈ HField.all, 0x1040 ≠ c.cfg.hdrBase + f.outOffset) ∧ 0x1040 ≠ c.cfg.rcountAddr) ∧
    (∀ c ∈ twoBlocks.blocks, 0x2011 ≠ c.cfg.rqAddr ∧ 0x2011 ≠ c.cfg.rcountAddr) ∧
    0x2010 = State.reset.cfg.rqAddr ∧ { State.reset with rq := [7, 8] }.rq = 7 :: [8] ∧ State.reset.rq = [] := by
  decide

/-- Two valid blocks without a common address, and the second one's `RQ_ADDR`. -/
theorem witness_AccessReachesTheBlockOfItsAddress :
    PlatformValid twoBlocks ∧ twoBlocks.others[0]? = some secondBlock ∧ 0x4010 ∈ secondBlock.cfg.addresses := by
  decide

theorem witness_HeaderWriteIsSevenWrites : HostMayAccess State.reset := by decide

theorem witness_HeaderReadIsSevenReads :
    (State.reset.hostFree = true ∧ State.reset.cfg.transport = .hardware) ∧
    (pollsHeader.hostFree = true ∧ pollsHeader.cfg.transport = .hardware) := by decide

theorem witness_MirrorReturnsTheHeader :
    HostMayAccess (configured fun c => { c with transport := .mirror }) ∧
    (configured fun c => { c with transport := .mirror }).cfg.transport = .mirror := by decide

theorem witness_PushAppendsToWriteQueue :
    HostMayAccess State.reset ∧ HostMayAccess oneDeep ∧ (oneDeep.cfg.queueDepth = some 1 ∧ oneDeep.wq.length < 1) ∧
    1 ≤ { oneDeep with wq := [5] }.wq.length := by decide

theorem witness_PopTakesHeadOfReadQueue :
    State.reset.hostFree = true ∧ State.reset.rq = [] ∧ { State.reset with rq := [7, 8] }.rq = 7 :: [8] := by decide

theorem witness_QueuesAreFirstInFirstOut :
    HostMayAccess State.reset ∧ State.reset.cfg.queueDepth = none ∧
    { State.reset with rq := [7, 8] }.rq = [7] ++ 8 :: [] := by decide

theorem witness_StartWritesOneToEnable :
    (ConfigValid State.reset.cfg ∧ HostMayAccess State.reset) ∧ (ConfigValid wide.cfg ∧ HostMayAccess wide) := by decide

theorem witness_PollReturnsThePollRegister :
    (State.reset.hostFree = true ∧ State.reset.cfg.transport = .hardware ∧ State.reset.cfg.pollAt = .rcount) ∧
    (pollsHeader.hostFree = true ∧ pollsHeader.cfg.transport = .hardware ∧ pollsHeader.cfg.pollAt = .hdrOut0) := by
  decide

theorem witness_TransferUnderWayRefusesWrites :
    ({ State.reset with inTransfer := true }.hostFree = true ∧ { State.reset with inTransfer := true }.inTransfer = true ∧
      State.reset.cfg.ctrlWidth = .w32) ∧
    ({ wide with inTransfer := true }.hostFree = true ∧ wide.cfg.ctrlWidth = .w64) := by decide

theorem witness_RunningSessionKeepsRegisters :
    TouchesRegisters .pollRead ∧ (inside (sessionIn .polling []) State.reset).session = some (sessionIn .polling []) ∧
    (sessionIn .polling []).ended = false := ⟨trivial, rfl, rfl⟩

theorem witness_SessionStartsIdleOrReportsShape :
    State.reset.hostFree = true ∧ State.reset.cfg.bytesPerBeat = 8 ∧ ([] : List Byte).length % 8 = 0 ∧
    (List.replicate 9 (1 : Byte)).length % 8 ≠ 0 := by decide

theorem witness_SessionSendsHeader :
    (inside (sessionIn .idle []) State.reset).session = some (sessionIn .idle []) ∧
    (sessionIn .idle []).ended = false ∧ (sessionIn .idle []).state = .idle ∧
    (sessionIn .idle []).block = State.reset.cfg.hdrBase ∧
    (inside (sessionIn .idle []) State.reset).inTransfer = false ∧
    (inside (sessionIn .idle []) { State.reset with inTransfer := true }).inTransfer = true := by decide

/-- Beats left, none left, a full queue. -/
theorem witness_SessionStreamsPayload :
    ((inside (sessionIn .headerSent [1]) mute).session = some (sessionIn .headerSent [1]) ∧
      (sessionIn .headerSent [1]).ended = false ∧ (sessionIn .headerSent [1]).state = .headerSent ∧
      (sessionIn .headerSent [1]).block = mute.cfg.hdrBase ∧
      (inside (sessionIn .headerSent [1]) mute).inTransfer = false ∧ (sessionIn .headerSent [1]).toPush = 1 :: []) ∧
    ((sessionIn .headerSent []).state = .headerSent ∧ (sessionIn .headerSent []).toPush = []) ∧
    after (step (inside (sessionIn .headerSent [1]) mute)) (·.wq) = some [1] ∧
    faultOf (step (inside (sessionIn .headerSent [1])
      { oneDeep with cfg := { oneDeep.cfg with transport := .silent }, wq := [5] })) = some .writeQueueFull := by
  decide

theorem witness_SessionEnablesThenPolls :
    ((inside (sessionIn .payloadSent []) State.reset).session = some (sessionIn .payloadSent []) ∧
      (sessionIn .payloadSent []).ended = false ∧ (sessionIn .payloadSent []).state = .payloadSent ∧
      (sessionIn .payloadSent []).block = State.reset.cfg.hdrBase ∧
      (inside (sessionIn .payloadSent []) State.reset).inTransfer = false) ∧
    ((inside (sessionIn .enabled []) State.reset).session = some (sessionIn .enabled []) ∧
      (sessionIn .enabled []).ended = false ∧ (sessionIn .enabled []).state = .enabled) := by decide

/-- A non-zero poll; a zero poll with no limit, below the limit, at it. -/
theorem witness_SessionPollsUntilNonZeroOrLimit :
    ((inside (sessionIn .polling []) loop).session = some (sessionIn .polling []) ∧
      (sessionIn .polling []).ended = false ∧ (sessionIn .polling []).state = .polling ∧
      (sessionIn .polling []).count = 0 ∧ (sessionIn .polling []).block = loop.cfg.hdrBase) ∧
    (inside (sessionIn .polling []) { loop with processing := true, pipe := 2 }).pipelineTurn.pollValue ≠ 0 ∧
    ((inside (sessionIn .polling []) mute).pipelineTurn.pollValue = 0 ∧ mute.cfg.pollLimit = none) ∧
    ((inside (sessionIn .polling []) muteLimited).pipelineTurn.pollValue = 0 ∧ muteLimited.cfg.pollLimit = some 3 ∧
      { sessionIn .polling [] with polls := 1 }.polls + 1 < 3 ∧
      3 ≤ { sessionIn .polling [] with polls := 2 }.polls + 1) := by decide

/-- The header not read yet; one of two beats read, with a beat in the queue and with none; both read. -/
theorem witness_SessionReceivesHeaderThenBeats :
    ((inside (receiving none []) State.reset).session = some (receiving none []) ∧
      (receiving none []).ended = false ∧ (receiving none []).state = .polling ∧ (receiving none []).count ≠ 0 ∧
      (receiving none []).block = State.reset.cfg.hdrBase ∧ State.reset.cfg.transport = .hardware ∧ State.reset.cfg.bytesPerBeat = 8) ∧
    (receiving (some sampleHeader) [7]).readBeats.length < (receiving (some sampleHeader) [7]).count ∧
    (receiving (some sampleHeader) [7, 8]).count ≤ (receiving (some sampleHeader) [7, 8]).readBeats.length ∧
    (inside (receiving (some sampleHeader) [7]) { State.reset with rq := [8] }).pipelineTurn.rq = 8 :: [] ∧
    (inside (receiving (some sampleHeader) [7]) State.reset).pipelineTurn.rq = [] :=
  ⟨by decide, by decide, by decide, rfl, rfl⟩

/-- The invariant, in a session that is polling. -/
theorem witness_invariant_polling : waiting.Inv := by
  simp [State.Inv, State.blocks, State.blockAt, Block.Inv, waiting, inside, mute, configured, State.reset,
    Config.Params.default, FitsControl, sessionIn, Session.Consistent]

theorem witness_SessionStatesInOrder :
    waiting.Inv ∧ waiting.session = some (sessionIn .polling []) ∧ (sessionIn .polling []).ended = false ∧
    (after (step waiting) (·.wq)).isSome = true :=
  ⟨witness_invariant_polling, rfl, rfl, rfl⟩

theorem witness_SilentPipelineHangsSession :
    waiting.cfg.transport = .silent ∧ waiting.cfg.pollLimit = none ∧
    waiting.session = some (sessionIn .polling []) ∧ (sessionIn .polling []).ended = false ∧
    (sessionIn .polling []).state = .polling ∧ (sessionIn .polling []).count = 0 ∧
    (sessionIn .polling []).block = waiting.cfg.hdrBase ∧
    (∀ j t, j < 1 → Host.Core.run core j waiting = .next t → t.pipelineTurn.pollValue = 0) := by
  refine ⟨rfl, rfl, rfl, rfl, rfl, rfl, rfl, fun j t hj ht => ?_⟩
  obtain rfl : j = 0 := by omega
  cases ht
  decide

/-- A session that polls a loopback with two beats in it. -/
def answering : State := inside (sessionIn .polling []) { loop with processing := true, pipe := 2 }

theorem witness_CompletingPipelineEndsThePoll :
    answering.session = some (sessionIn .polling []) ∧ (sessionIn .polling []).ended = false ∧
    (sessionIn .polling []).state = .polling ∧ (sessionIn .polling []).count = 0 ∧
    (sessionIn .polling []).block = answering.cfg.hdrBase ∧ answering.cfg.pollLimit = none ∧
    PipelineCompletes answering :=
  ⟨rfl, rfl, rfl, rfl, rfl, rfl, 0, answering, rfl, rfl, by decide⟩

theorem witness_SilentPipelineTimesOut :
    muteLimited.cfg.transport = .silent ∧ muteLimited.cfg.pollLimit = some 3 ∧ 0 < 3 ∧
    (inside (sessionIn .polling []) muteLimited).session = some (sessionIn .polling []) ∧
    (sessionIn .polling []).ended = false ∧ (sessionIn .polling []).state = .polling ∧
    (sessionIn .polling []).count = 0 ∧ (sessionIn .polling []).polls = 0 ∧
    (sessionIn .polling []).block = muteLimited.cfg.hdrBase := by decide

/-- P2's state, 16 bytes to send. -/
def loopCalling : State := { loop with calls := [⟨0x1000, .sessionRun sampleHeader (List.replicate 16 7)⟩] }

theorem witness_LoopbackSessionReturnsItsPayload :
    loopCalling.cfg.transport = .loopback ∧ loopCalling.cfg.pollAt = .rcount ∧ loopCalling.cfg.bytesPerBeat = 8 ∧
    loopCalling.cfg.queueDepth = none ∧ loopCalling.cfg.serOrder = loopCalling.cfg.desOrder ∧
    CleanEntry loopCalling ∧ loopCalling.pipe = 0 ∧ HostMayAccess loopCalling ∧
    loopCalling.calls = ⟨loopCalling.cfg.hdrBase, .sessionRun sampleHeader (List.replicate 16 7)⟩ :: [] ∧
    (List.replicate 16 (7 : Byte)).length % 8 = 0 ∧ 0 < (List.replicate 16 (7 : Byte)).length ∧
    (List.replicate 16 (7 : Byte)).length / 8 < 2 ^ 32 := by decide

theorem witness_StepKeepsInvariant :
    waiting.Inv ∧ (after (step waiting) (·.wq)).isSome = true :=
  ⟨witness_invariant_polling, rfl⟩

theorem witness_StepKeepsConfiguration : (after (step State.reset) (·.wq)).isSome = true := rfl

theorem witness_HeaderInputsChangeOnlyWhenWritten :
    after (step { mute with calls := [⟨0x1000, .hdrWrite sampleHeader⟩] }) (fun t => t.blocks.map (·.hdrIn)) =
      some [sampleHeader] ∧
    mute.blocks.map (·.hdrIn) ≠ [sampleHeader] := by decide

theorem witness_PipelineWaitsForStart :
    (State.reset.toBlock.processing = false ∧ State.reset.toBlock.cfg.transport = .hardware ∧
      State.reset.toBlock.answered = false ∧ State.reset.toBlock.cfg.pollAt = .rcount) ∧
    (pollsHeader.toBlock.processing = false ∧ pollsHeader.toBlock.cfg.transport = .hardware ∧
      pollsHeader.toBlock.answered = false ∧ pollsHeader.toBlock.cfg.pollAt = .hdrOut0) := by decide

theorem witness_StepInvokesTheNextCall :
    State.reset.hostFree = true ∧ State.reset.calls = [] ∧
    { State.reset with calls := [⟨0x1000, .encode 0 8 6⟩] }.calls = ⟨State.reset.cfg.hdrBase, .encode 0 8 6⟩ :: [] ∧
    (Instr.encode 0 8 6).wellFormed = true ∧ (Instr.encode 0 8 256).wellFormed = false ∧
    (∀ b ∈ twoBlocks.blocks, b.cfg.hdrBase ≠ 0x5000) := by decide

/-- A call and a session of the second block. -/
theorem witness_StepOnAnotherBlock :
    twoBlocks.others[0]? = some secondBlock ∧ twoBlocks.cfg.hdrBase ≠ secondBlock.cfg.hdrBase ∧
    (∀ c ∈ twoBlocks.others.take 0, c.cfg.hdrBase ≠ secondBlock.cfg.hdrBase) ∧
    (twoBlocks.hostFree = true ∧
      { twoBlocks with calls := [⟨0x3000, .rqPop⟩] }.calls = ⟨secondBlock.cfg.hdrBase, .rqPop⟩ :: []) ∧
    { sessionIn .polling [] with block := 0x3000 }.block = secondBlock.cfg.hdrBase := by decide

theorem witness_StepRunsTheDecodedRecord :
    decodeTableWord 16 0x0A07 = some (.serPush 0x0A) ∧ (Instr.serPush 0x0A).wellFormed = true := by decide

theorem witness_DecodingARecordGivesTheCall : (Instr.encode 0x400C000000000000 300 255).wellFormed = true := by decide

theorem witness_DecodedCallsAreWellFormed :
    decodeCall [1, 0, 0, 0, 0, 0, 0, 0x0C, 0x40, 8, 255] = .ok (.encode 0x400C000000000000 8 255, []) := rfl

end Sys2Proof.Tests
end

/-!
### The proofs of the family "state"

Reset, the invariant, what a step leaves unchanged, and which call a step makes (spec/10_state.md). An access of the
host changes one block, brought to hand by `State.swap`; the lemmas of the first part carry what it does there back to
the list of all blocks.
-/

namespace Sys2Proof.Machine

variable {s t u v : State} {i : Instr} {σ : Session}

/-! #### From the block at hand to all blocks -/

/-- A relation that holds place by place still holds when related elements are put in one place. -/
theorem forall₂_set {α β : Type} {R : α → β → Prop} {as : List α} {bs : List β} {a : α} {b : β} (j : Nat)
    (h : List.Forall₂ R as bs) (hab : R a b) : List.Forall₂ R (as.set j a) (bs.set j b) := by
  induction h generalizing j with
  | nil => exact .nil
  | cons hd tl ih =>
    cases j with
    | zero => exact .cons hab tl
    | succ j => exact .cons hd (ih j)

/-- What stands in a place on the left has a partner in that place on the right. -/
theorem forall₂_getElem? {α β : Type} {R : α → β → Prop} {as : List α} {bs : List β} {a : α} {j : Nat}
    (h : List.Forall₂ R as bs) (ha : as[j]? = some a) : ∃ b, bs[j]? = some b ∧ R a b := by
  obtain ⟨hj, rfl⟩ := List.getElem?_eq_some_iff.1 ha
  exact ⟨_, List.getElem?_eq_getElem (h.length_eq ▸ hj), h.get hj (h.length_eq ▸ hj)⟩

theorem swap_of_none {j : Nat} (h : s.others[j]? = none) : s.swap j = s := by
  simp [State.swap, h]

/-- Changing places on both sides keeps a relation that holds block by block. -/
theorem swap_blocks_forall₂ {R : Block → Block → Prop} (j : Nat) (h : List.Forall₂ R s.blocks t.blocks) :
    List.Forall₂ R (s.swap j).blocks (t.swap j).blocks := by
  obtain ⟨hhand, hothers⟩ := List.forall₂_cons.1 h
  cases hs : s.others[j]? with
  | none =>
    have ht : t.others[j]? = none := by
      rw [List.getElem?_eq_none_iff] at hs ⊢
      exact hothers.length_eq ▸ hs
    rwa [swap_of_none hs, swap_of_none ht]
  | some b =>
    obtain ⟨c, hc, hbc⟩ := forall₂_getElem? hothers hs
    rw [swap_eq hs, swap_eq hc]
    exact .cons hbc (forall₂_set j hothers hhand)

/-- What is done on a block brought to hand is done on it in its place. -/
theorem blocks_forall₂_of_swap {R : Block → Block → Prop} {j : Nat}
    (h : List.Forall₂ R (s.swap j).blocks u.blocks) : List.Forall₂ R s.blocks (u.swap j).blocks := by
  simpa using swap_blocks_forall₂ j h

/-- Where the other blocks stay, a reflexive relation need only be shown of the block at hand. -/
theorem blocks_forall₂_of_others {R : Block → Block → Prop} (hrefl : ∀ b, R b b) (ho : t.others = s.others)
    (h : R s.toBlock t.toBlock) : List.Forall₂ R s.blocks t.blocks := by
  refine .cons h ?_
  rw [ho]
  exact List.forall₂_same.2 fun b _ => hrefl b

/-- The part of the host's and the codec's side that the invariant speaks of. -/
structure SameHostSide (s t : State) : Prop where
  serCnt : t.serCnt = s.serCnt
  desCnt : t.desCnt = s.desCnt
  session : t.session = s.session

theorem sameHostSide_refl (s : State) : SameHostSide s s := ⟨rfl, rfl, rfl⟩

theorem sameHostSide_swap (j : Nat) (s : State) : SameHostSide s (s.swap j) := by
  constructor <;> simp

/-- The access leaves the other blocks and the configuration of the block at hand alone. -/
def KeepsOthers (s t : State) : Prop := t.others = s.others ∧ t.cfg = s.cfg

/-- An access of `s` made on the block at `base`: `u` has that block at hand, the access takes `u` to `v`, and `t` has
every block of `v` back in its place. -/
structure Access (base : Nat) (s u v t : State) : Prop where
  base_eq : u.cfg.hdrBase = base
  sideBefore : SameHostSide s u
  sideAfter : SameHostSide v t
  blocks : ∀ {R : Block → Block → Prop}, List.Forall₂ R u.blocks v.blocks → List.Forall₂ R s.blocks t.blocks
  foundBefore : s.blockAt base = some u.toBlock
  foundAfter : KeepsOthers u v → t.blockAt base = some v.toBlock

theorem blockAt_here {base : Nat} (h : s.cfg.hdrBase = base) : s.blockAt base = some s.toBlock := by
  simp [State.blockAt, State.blocks, h]

/-- The block at a base is the first other block with it, when the block at hand has another one. -/
theorem blockAt_other {base j : Nat} {b : Block} (h : s.cfg.hdrBase ≠ base) (hj : s.others[j]? = some b)
    (hb : b.cfg.hdrBase = base) (hfirst : ∀ i < j, ∀ c, s.others[i]? = some c → c.cfg.hdrBase ≠ base) :
    s.blockAt base = some b := by
  have hfind : s.others.find? (fun b => b.cfg.hdrBase == base) = some b := by
    obtain ⟨hlt, rfl⟩ := List.getElem?_eq_some_iff.1 hj
    refine List.find?_eq_some_iff_getElem.2 ⟨by simpa using hb, j, hlt, rfl, fun i hi => ?_⟩
    simpa using hfirst i hi _ (List.getElem?_eq_getElem (hi.trans hlt))
  simpa [State.blockAt, State.blocks, h] using hfind

/-- An access on a block that goes through, whether the block was at hand or had to be brought there. -/
theorem onBlock_access {base : Nat} {k : State → Answer} (h : s.onBlock base k = .next t) :
    ∃ u v, k u = .next v ∧ Access base s u v t := by
  obtain ⟨hp, hk⟩ | ⟨j, b, v, hp, hj, hb, hfirst, hk, rfl⟩ := atBlock_eq_next h
  · have hbase : s.cfg.hdrBase = base := by simpa using hp
    refine ⟨s, t, hk, hbase, sameHostSide_refl s, sameHostSide_refl t, id, blockAt_here hbase,
      fun ⟨_, hcfg⟩ => ?_⟩
    exact blockAt_here (by rw [hcfg, hbase])
  · have hne : s.cfg.hdrBase ≠ base := by simpa using hp
    have hbase : b.cfg.hdrBase = base := by simpa using hb
    have hfirst : ∀ i < j, ∀ c, s.others[i]? = some c → c.cfg.hdrBase ≠ base := by simpa using hfirst
    have hhand : (s.swap j).toBlock = b := by rw [swap_eq hj]
    have hothers : (s.swap j).others = s.others.set j s.toBlock := by rw [swap_eq hj]
    refine ⟨s.swap j, v, hk, by rw [hhand, hbase], sameHostSide_swap j s, sameHostSide_swap j v,
      blocks_forall₂_of_swap, by rw [hhand, blockAt_other hne hj hbase hfirst], fun ⟨hv, hcfg⟩ => ?_⟩
    obtain ⟨hlt, -⟩ := List.getElem?_eq_some_iff.1 hj
    have hback : v.others[j]? = some s.toBlock := by simp [hv, hothers, hlt]
    rw [swap_eq hback]
    refine blockAt_other (j := j) hne ?_ (by rw [hcfg, hhand, hbase]) fun i hi c hc => hfirst i hi c ?_
    · simp [hv, hothers, hlt]
    · simpa [hv, hothers, hi.ne'] using hc

/-! #### What the named updates do to the block at hand -/

theorem CallEffect.keepsOthers (h : CallEffect i u v) : KeepsOthers u v := by
  cases h <;> exact ⟨by simp, by simp⟩

theorem SessionEffect.keepsOthers (h : SessionEffect σ u v) : KeepsOthers u v := by
  cases h <;> exact ⟨by simp, by simp⟩

/-- `HDR_IN` changes by the two operations that write it, and each writes what it says (R36). -/
theorem CallEffect.hdrIn (h : CallEffect i u v) :
    v.hdrIn = u.hdrIn ∨ (∃ hd, i = .hdrWrite hd ∧ v.hdrIn = hd) ∨
      ∃ f w, i = .regWr32 (u.cfg.hdrBase + f.inOffset) w ∧ v.hdrIn = u.hdrIn.set f w := by
  cases h
  case field f w hi _ => exact .inr (.inr ⟨f, w, hi, rfl⟩)
  case header hd hi _ => exact .inr (.inl ⟨hd, hi, rfl⟩)
  all_goals exact .inl (by simp)

/-- A session writes `HDR_IN` in its header transition only (R191). -/
theorem SessionEffect.hdrIn (h : SessionEffect σ u v) :
    v.hdrIn = u.hdrIn ∨ σ.state = .idle ∧ v.hdrIn = σ.txHeader := by
  cases h
  case header hσ _ => exact .inr ⟨hσ, rfl⟩
  all_goals exact .inl (by simp)

/-! #### What the named updates do to the invariant of the block at hand -/

/-- A push into a queue with room stays within its depth (R174). -/
theorem enqueue_blockInv {b : Beat} (hroom : s.wqFull = false) (h : s.toBlock.Inv) :
    (s.enqueue b).toBlock.Inv := by
  obtain ⟨hen, hwc, hrc, -, hrun⟩ := h
  refine ⟨hen, hwc, hrc, fun d hd => ?_, hrun⟩
  have hd : s.cfg.queueDepth = some d := hd
  have hlt : s.wq.length < d := by simpa [State.wqFull, hd] using hroom
  simpa using hlt

/-- A start writes 1, which fits either width, and the pipeline runs (R176). -/
theorem started_blockInv (h : s.toBlock.Inv) : s.started.toBlock.Inv := by
  obtain ⟨-, hwc, hrc, hdepth, -⟩ := h
  exact ⟨fun _ => show (1 : Word64).toNat < 2 ^ 32 by decide, hwc, hrc, hdepth, fun _ => rfl⟩

/-- The read that ends the pipeline's run ends the transfer with it (R221). -/
theorem noteCount_blockInv (n : Nat) (h : s.toBlock.Inv) : (s.noteCount n).toBlock.Inv := by
  obtain ⟨hen, hwc, hrc, hdepth, hrun⟩ := h
  refine ⟨?_, ?_, ?_, ?_, fun ht => ?_⟩
  · simpa using hen
  · simpa using hwc
  · simpa using hrc
  · simpa using hdepth
  · have ht : n = 0 ∧ s.inTransfer = true := by simpa using ht
    simpa [ht.1] using hrun ht.2

theorem afterHdrRead_blockInv (f : HField) (h : s.toBlock.Inv) : (s.afterHdrRead f).toBlock.Inv := by
  obtain hs | ⟨n, hs⟩ := afterHdrRead_effect (s := s) f <;> rw [hs]
  · exact h
  · exact noteCount_blockInv n h

theorem CallEffect.blockInv (h : CallEffect i u v) (hb : u.toBlock.Inv) : v.toBlock.Inv := by
  cases h
  case push _ hroom => exact enqueue_blockInv hroom hb
  case start => exact started_blockInv hb
  case note n => exact noteCount_blockInv n hb
  all_goals simpa [Block.Inv] using hb

theorem SessionEffect.blockInv (h : SessionEffect σ u v) (hb : u.toBlock.Inv) : v.toBlock.Inv := by
  cases h
  case push hroom => exact enqueue_blockInv hroom hb
  case start => exact started_blockInv hb
  case counted => exact noteCount_blockInv _ hb
  case report => exact afterHdrRead_blockInv _ hb
  case timeout =>
    obtain ⟨hen, hwc, hrc, hdepth, -⟩ := hb
    exact ⟨hen, hwc, hrc, hdepth, nofun⟩
  all_goals simpa [Block.Inv] using hb

/-! #### What the pipeline's turn does to its block -/

theorem fitWidth_fits (cfg : Config.Params) (w : Word64) : FitsControl cfg (fitWidth cfg.ctrlWidth w) := by
  intro hw
  simp only [hw, fitWidth, BitVec.toNat_setWidth]
  omega

theorem applyMove_inv (m : Config.PipelineMove) {b : Block} (h : b.Inv) : (b.applyMove m).Inv := by
  obtain ⟨hen, hwc, hrc, hdepth, hrun⟩ := h
  have hfit := fitWidth_fits b.cfg
  unfold Block.applyMove
  split
  · refine ⟨hfit _, hfit _, hfit _, fun d hd => ?_, hrun⟩
    exact (List.drop_sublist _ _).length_le.trans (hdepth d hd)
  split
  · exact ⟨hen, hfit _, hfit _, hdepth, hrun⟩
  split
  · exact ⟨hen, hfit _, hrc, hdepth, hrun⟩
  · exact ⟨hen, hfit _, hfit _, hdepth, hrun⟩

theorem loopBack_inv {b : Block} (h : b.Inv) : b.loopBack.Inv := by
  obtain ⟨hen, hwc, -, -, hrun⟩ := h
  refine ⟨hen, hwc, ?_, fun d _ => Nat.zero_le d, hrun⟩
  simp only [Block.loopBack]
  split
  · exact fitWidth_fits b.cfg _
  · exact fun _ => by decide

theorem turn_inv {b : Block} (h : b.Inv) : b.turn.Inv := by
  obtain ⟨m, hb⟩ | ⟨-, hb⟩ | ⟨-, hb⟩ := turn_cases b <;> rw [hb]
  · exact applyMove_inv m h
  · exact loopBack_inv h
  · exact h

theorem applyMove_moved (m : Config.PipelineMove) (b : Block) : b.Moved (b.applyMove m) := by
  unfold Block.applyMove
  split
  · exact ⟨_, _, _, _, _, _, _, rfl, ⟨m.takes, rfl⟩, ⟨m.gives, rfl⟩⟩
  have hwq : ∃ k, b.wq = b.wq.drop k := ⟨0, rfl⟩
  have hrq : ∃ given, b.rq = b.rq ++ given := ⟨[], (List.append_nil _).symm⟩
  split
  · exact ⟨_, _, _, _, _, _, _, rfl, hwq, hrq⟩
  split
  · exact ⟨_, _, _, _, _, _, _, rfl, hwq, hrq⟩
  · exact ⟨_, _, _, _, _, _, _, rfl, hwq, hrq⟩

/-- Whatever stands behind the registers, a turn reaches only what a pipeline may (R34). -/
theorem turn_moved (b : Block) : b.Moved b.turn := by
  obtain ⟨m, hb⟩ | ⟨-, hb⟩ | ⟨-, hb⟩ := turn_cases b <;> rw [hb]
  · exact applyMove_moved m b
  · exact ⟨_, _, _, _, _, _, _, rfl, ⟨b.wq.length, List.drop_length.symm⟩, ⟨b.wq, rfl⟩⟩
  · exact ⟨_, _, _, _, _, _, _, rfl, ⟨0, rfl⟩, ⟨[], (List.append_nil _).symm⟩⟩

@[simp] theorem pipelineTurn_blocks (s : State) : s.pipelineTurn.blocks = s.blocks.map Block.turn := rfl

/-- The block at a base after the pipelines' turn is that block after its own. -/
theorem pipelineTurn_blockAt (s : State) (base : Nat) :
    s.pipelineTurn.blockAt base = (s.blockAt base).map Block.turn := by
  have hp : (fun b : Block => b.cfg.hdrBase == base) ∘ Block.turn = fun b => b.cfg.hdrBase == base := by
    funext b
    simp
  rw [State.blockAt, State.blockAt, pipelineTurn_blocks, List.find?_map, hp]

theorem pipelineTurn_inv (h : s.Inv) : s.pipelineTurn.Inv := by
  obtain ⟨hser, hdes, hblocks, hsession⟩ := h
  refine ⟨hser, hdes, fun b hb => ?_, fun σ hσ => ?_⟩
  · rw [pipelineTurn_blocks] at hb
    obtain ⟨c, hc, rfl⟩ := List.mem_map.1 hb
    exact turn_inv (hblocks c hc)
  · obtain ⟨hcons, hwait⟩ := hsession σ hσ
    refine ⟨hcons, fun hw b hb => ?_⟩
    rw [pipelineTurn_blockAt] at hb
    obtain ⟨c, hc, rfl⟩ := Option.map_eq_some_iff.1 hb
    simpa using hwait hw c hc

/-! #### From a call or a step to every block -/

/-- A relation that every named update of a call respects holds block by block across the call. -/
theorem exec_blocks_forall₂ {R : Block → Block → Prop} (hrefl : ∀ b, R b b)
    (hcall : ∀ {u v}, CallEffect i u v → R u.toBlock v.toBlock) (h : exec i s = .next t) :
    List.Forall₂ R s.blocks t.blocks := by
  have hhand {u v : State} (hv : CallEffect i u v) : List.Forall₂ R u.blocks v.blocks :=
    blocks_forall₂_of_others hrefl hv.keepsOthers.1 (hcall hv)
  obtain ⟨r, v, hv, rfl⟩ | ⟨j, b, r, v, -, -, hv, rfl⟩ := exec_effect h
  · have hblocks := hhand hv
    exact hblocks
  · have hblocks := hhand hv
    exact blocks_forall₂_of_swap (u := v.finish r) hblocks

/-- A relation that the call or the session of a step respects on the block it names holds block by block across the
step, from the pipelines' turn on. -/
theorem step_blocks_forall₂ {R : Block → Block → Prop} (hrefl : ∀ b, R b b)
    (hcall : ∀ {c rest u v}, s.hostFree = true → s.calls = c :: rest → u.cfg.hdrBase = c.block →
      exec c.op u = .next v → List.Forall₂ R u.blocks v.blocks)
    (hsession : ∀ {σ u v}, s.session = some σ → σ.ended = false → u.cfg.hdrBase = σ.block →
      SessionEffect σ u v → R u.toBlock v.toBlock)
    (h : step s = .next t) : List.Forall₂ R s.pipelineTurn.blocks t.blocks := by
  obtain ⟨σ, hσ, hrun, h⟩ | ⟨-, -, rfl⟩ | ⟨hfree, c, rest, hc, -, h⟩ := step_cases h
  · obtain ⟨u, v, hk, ha⟩ := onBlock_access h
    have he := sessionStep_effect hk
    exact ha.blocks (blocks_forall₂_of_others hrefl he.keepsOthers.1 (hsession hσ hrun ha.base_eq he))
  · exact List.forall₂_same.2 fun b _ => hrefl b
  · obtain ⟨u, v, hk, ha⟩ := onBlock_access h
    exact ha.blocks (hcall hfree hc ha.base_eq hk)

/-! #### The invariant of the host's and the codec's side -/

/-- The byte counts are in range and the session, if there is one, waits for no block: what the invariant says beyond
the blocks when the host is free. -/
def State.AtRest (s : State) : Prop :=
  s.serCnt ≤ 8 ∧ s.desCnt ≤ 8 ∧ ∀ σ, s.session = some σ → σ.Consistent ∧ ¬σ.Waiting

theorem atRest_congr (h : SameHostSide s t) : t.AtRest ↔ s.AtRest := by
  rw [State.AtRest, State.AtRest, h.serCnt, h.desCnt, h.session]

theorem inv_of_atRest (h : s.AtRest) (hb : ∀ b ∈ s.blocks, b.Inv) : s.Inv := by
  obtain ⟨hser, hdes, hsession⟩ := h
  exact ⟨hser, hdes, hb, fun σ hσ => ⟨(hsession σ hσ).1, fun hw => absurd hw (hsession σ hσ).2⟩⟩

theorem ended_of_hostFree (hfree : s.hostFree = true) (hσ : s.session = some σ) : σ.ended = true := by
  simpa [State.hostFree, hσ] using hfree

/-- A session that has ended waits for nothing. -/
theorem inv_atRest (hfree : s.hostFree = true) (h : s.Inv) : s.AtRest := by
  obtain ⟨hser, hdes, -, hsession⟩ := h
  refine ⟨hser, hdes, fun σ hσ => ⟨(hsession σ hσ).1, fun ⟨hrun, _⟩ => ?_⟩⟩
  simp [ended_of_hostFree hfree hσ] at hrun

/-- A session in `Idle` is consistent, whether it is to run or has ended with a shape report. -/
theorem create_consistent (block : Nat) (hd : Header) (bs : List Beat) (ended : Bool) :
    { Session.create block hd bs with ended := ended }.Consistent := by
  simp [Session.Consistent, Session.create, Session.NothingRead]

/-- No call makes a session wait: it leaves the session, discards it, or creates one in `Idle`. -/
theorem CallEffect.atRest (h : CallEffect i u v) (hu : u.AtRest) : v.AtRest := by
  obtain ⟨hser, hdes, hsession⟩ := hu
  cases h
  case framed bs =>
    refine ⟨?_, by simpa using hdes, by simpa using hsession⟩
    rw [State.afterFraming_serCnt]
    split <;> omega
  case unframed bs =>
    refine ⟨by simpa using hser, ?_, by simpa using hsession⟩
    rw [State.afterUnframing_desCnt]
    split <;> omega
  case byteIn b =>
    refine ⟨?_, by simpa using hdes, by simpa using hsession⟩
    rw [State.pushByte_serCnt]
    split <;> omega
  case byteOut =>
    refine ⟨by simpa using hser, ?_, by simpa using hsession⟩
    rw [State.popByte_desCnt]
    split <;> omega
  case session hd bs hf =>
    refine ⟨?_, by simpa using hdes, ?_⟩
    · rw [State.setSession_serCnt, State.afterFraming_serCnt]
      split <;> omega
    · simpa [Session.Waiting, Session.create] using create_consistent u.cfg.hdrBase hd bs false
  case shape hd hf =>
    refine ⟨hser, hdes, ?_⟩
    simpa [Session.Waiting, Session.create] using create_consistent u.cfg.hdrBase hd [] true
  case discard =>
    refine ⟨hser, hdes, fun σ hσ => hsession σ ?_⟩
    exact (Option.filter_eq_some_iff.1 hσ).1
  all_goals exact ⟨by simpa using hser, by simpa using hdes, by simpa using hsession⟩

theorem exec_atRest (h : exec i s = .next t) (hs : s.AtRest) : t.AtRest := by
  obtain ⟨r, v, hv, rfl⟩ | ⟨j, b, r, v, -, -, hv, rfl⟩ := exec_effect h
  · exact hv.atRest hs
  · exact (atRest_congr (sameHostSide_swap j (v.finish r))).2
      (hv.atRest ((atRest_congr (sameHostSide_swap j s)).2 hs))

/-! #### The running session -/

/-- The transport calls of a session leave `SER_CNT`; the last transition unframes what was received (R195). -/
theorem SessionEffect.serCnt (h : SessionEffect σ u v) : v.serCnt = u.serCnt := by
  cases h <;> simp

theorem SessionEffect.desCnt_le (h : SessionEffect σ u v) (hu : u.desCnt ≤ 8) : v.desCnt ≤ 8 := by
  cases h
  case complete =>
    rw [State.finish_desCnt, State.setSession_desCnt, State.afterUnframing_desCnt]
    split <;> omega
  all_goals simpa using hu

/-- A running session goes on to a consistent one on its block; if that waits for the pipeline, the transfer is under
way: it was started, or it was under way before and still is. -/
theorem SessionEffect.session (h : SessionEffect σ u v) (hc : σ.Consistent) (hrun : σ.ended = false)
    (hw : σ.Waiting → u.inTransfer = true) :
    ∃ τ, v.session = some τ ∧ τ.block = σ.block ∧ τ.Consistent ∧ (τ.Waiting → v.inTransfer = true) := by
  cases h
  case header hσ _ =>
    refine ⟨_, rfl, rfl, ?_, by simp [Session.Waiting]⟩
    simp_all [Session.Consistent, Session.NothingRead]
  case push b rest hσ hp _ _ =>
    refine ⟨_, rfl, rfl, ?_, by simp [Session.Waiting, hσ]⟩
    simp only [Session.Consistent, hσ, hp] at hc ⊢
    obtain ⟨hend, ⟨sent, hsent⟩, hrest⟩ := hc
    exact ⟨hend, ⟨sent ++ [b], by simpa using hsent⟩, hrest⟩
  case sent hσ hp =>
    refine ⟨_, rfl, rfl, ?_, by simp [Session.Waiting]⟩
    simp_all [Session.Consistent, Session.NothingRead]
  case start hσ _ =>
    refine ⟨_, rfl, rfl, ?_, fun _ => rfl⟩
    simp_all [Session.Consistent, Session.NothingRead]
  case poll hσ =>
    refine ⟨_, rfl, rfl, ?_, fun _ => hw ⟨hrun, .inl hσ⟩⟩
    simp_all [Session.Consistent, Session.NothingRead]
  case zero hσ hcount _ =>
    refine ⟨_, rfl, rfl, ?_, fun _ => hw ⟨hrun, .inr ⟨hσ, hcount⟩⟩⟩
    simp_all [Session.Consistent]
  case timeout hσ hcount _ =>
    refine ⟨_, rfl, rfl, ?_, by simp [Session.Waiting]⟩
    simp_all [Session.Consistent]
  case counted hσ hcount hn =>
    refine ⟨_, rfl, rfl, ?_, by simp [Session.Waiting, hσ, hn]⟩
    simp_all [Session.Consistent]
  case report hσ hcount hh =>
    refine ⟨_, rfl, rfl, ?_, by simp [Session.Waiting, hσ, hcount]⟩
    simp_all [Session.Consistent]
  case pop hd hσ hcount hh hl =>
    refine ⟨_, rfl, rfl, ?_, by simp [Session.Waiting, hσ, hcount]⟩
    simp_all [Session.Consistent]
  case complete hd hσ hcount hh hl =>
    refine ⟨_, rfl, rfl, ?_, by simp [Session.Waiting]⟩
    simp only [Session.Consistent, hσ] at hc ⊢
    obtain ⟨hpush, hlen, -⟩ := hc
    exact ⟨trivial, hpush, hcount, nofun, hh.symm, trivial, le_antisymm hlen hl⟩
  case completed hσ =>
    simp [Session.Consistent, hσ, hrun] at hc

/-- The session's access keeps what the invariant says of the session and the counts. -/
theorem onBlock_session_inv (hs : s.Inv) (hσ : s.session = some σ) (hrun : σ.ended = false)
    (h : s.onBlock σ.block (sessionStep σ) = .next t) (hb : ∀ b ∈ t.blocks, b.Inv) : t.Inv := by
  obtain ⟨hser, hdes, -, hsession⟩ := hs
  obtain ⟨hcons, hwait⟩ := hsession σ hσ
  obtain ⟨u, v, hk, ha⟩ := onBlock_access h
  have he := sessionStep_effect hk
  obtain ⟨τ, hτ, hblock, hτcons, hτwait⟩ := he.session hcons hrun fun hw => hwait hw _ ha.foundBefore
  refine ⟨?_, ?_, hb, fun τ' hτ' => ?_⟩
  · rw [ha.sideAfter.serCnt, he.serCnt, ha.sideBefore.serCnt]
    exact hser
  · rw [ha.sideAfter.desCnt]
    exact he.desCnt_le (ha.sideBefore.desCnt ▸ hdes)
  · rw [ha.sideAfter.session, hτ] at hτ'
    obtain rfl := Option.some.inj hτ'
    refine ⟨hτcons, fun hw b hfound => ?_⟩
    rw [hblock, ha.foundAfter he.keepsOthers] at hfound
    exact Option.some.inj hfound ▸ hτwait hw

/-! #### The invariant is kept, from reset on -/

/-- Every update of a step keeps what the invariant says of a block, so every block keeps it. -/
theorem step_blockInv {t : State} (hs : s.Inv) (h : step s = .next t) : ∀ b ∈ t.blocks, b.Inv := by
  obtain ⟨-, -, hblocks, -⟩ := pipelineTurn_inv hs
  have hkeep : List.Forall₂ (fun b c => b.Inv → c.Inv) s.pipelineTurn.blocks t.blocks :=
    step_blocks_forall₂ (fun _ => id) (fun _ _ _ => exec_blocks_forall₂ (fun _ => id) CallEffect.blockInv)
      (fun _ _ _ => SessionEffect.blockInv) h
  intro c hc
  obtain ⟨k, hk⟩ := List.mem_iff_getElem?.1 hc
  obtain ⟨b, hb, hbc⟩ := forall₂_getElem? hkeep.flip hk
  exact hbc (hblocks b (List.mem_of_getElem? hb))

/-- Settles O50: the blocks by `step_blockInv`; the counts and the session by the three kinds of step. -/
theorem stepKeepsInvariant : Obligations.StepKeepsInvariant := by
  intro s t hs h
  have hblocks := step_blockInv hs h
  have hturn := pipelineTurn_inv hs
  obtain ⟨σ, hσ, hrun, h⟩ | ⟨-, -, rfl⟩ | ⟨hfree, c, rest, -, -, h⟩ := step_cases h
  · exact onBlock_session_inv hturn hσ hrun h hblocks
  · exact hturn
  · obtain ⟨u, v, hk, ha⟩ := onBlock_access h
    have hu : u.AtRest := (atRest_congr ha.sideBefore).2 (inv_atRest (s := s.pipelineTurn) hfree hturn)
    exact inv_of_atRest ((atRest_congr ha.sideAfter).2 (exec_atRest hk hu)) hblocks

/-- After reset every register is 0, every queue empty and no pipeline runs. -/
theorem reset_blockInv : State.reset.toBlock.Inv :=
  ⟨fun _ => by decide, fun _ => by decide, fun _ => by decide, fun d _ => Nat.zero_le d, nofun⟩

/-- Settles O49: one block, nothing counted, no session. -/
theorem resetMeetsInvariant : Obligations.ResetMeetsInvariant :=
  ⟨by decide, by decide, List.forall_mem_singleton.2 reset_blockInv, nofun⟩

/-- Settles O48: every field of the fixed reset state, evaluated. -/
theorem resetIsCleanEntry : Obligations.ResetIsCleanEntry := by
  unfold Obligations.ResetIsCleanEntry
  decide

/-! #### The configuration and `HDR_IN`: what a step leaves, and who writes -/

/-- Settles O51: neither the turn nor an update of a call or a session writes a configuration. -/
theorem stepKeepsConfiguration : Obligations.StepKeepsConfiguration := by
  intro s t h
  have hkeep : List.Forall₂ (fun b c => b.cfg = c.cfg) s.pipelineTurn.blocks t.blocks :=
    step_blocks_forall₂ (fun _ => rfl)
      (fun _ _ _ => exec_blocks_forall₂ (fun _ => rfl) fun hv => hv.keepsOthers.2.symm)
      (fun _ _ _ hv => hv.keepsOthers.2.symm) h
  have hmap : s.pipelineTurn.blocks.map Block.cfg = t.blocks.map Block.cfg := by
    rw [← List.forall₂_eq_eq_eq, List.forall₂_map_left_iff, List.forall₂_map_right_iff]
    exact hkeep
  have hturn : s.pipelineTurn.blocks.map Block.cfg = s.blocks.map Block.cfg := by
    rw [pipelineTurn_blocks, List.map_map]
    exact List.map_congr_left fun b _ => b.turn_cfg
  exact hmap.symm.trans hturn

/-- What may stand in the `HDR_IN` of a block before and after the call `i` made with the parameters at `base`. -/
def HdrInByCall (base : Nat) (i : Instr) (b b' : Block) : Prop :=
  b'.hdrIn = b.hdrIn ∨ (∃ hd, b.cfg.hdrBase = base ∧ i = .hdrWrite hd ∧ b'.hdrIn = hd) ∨
    ∃ f w, i = .regWr32 (b.cfg.hdrBase + f.inOffset) w ∧ b'.hdrIn = b.hdrIn.set f w

/-- An HDR.WRITE writes the block at hand; every other call that writes a field names its address. -/
theorem exec_hdrIn {i : Instr} {t : State} (h : exec i s = .next t) :
    List.Forall₂ (HdrInByCall s.cfg.hdrBase i) s.blocks t.blocks := by
  have hrefl : ∀ b, HdrInByCall s.cfg.hdrBase i b b := fun _ => .inl rfl
  by_cases hi : ∃ hd, i = .hdrWrite hd
  · obtain ⟨hd, rfl⟩ := hi
    obtain rfl := Answer.next_inj (beforeStart_eq_next (whenHostFree_eq_next h).2).2
    exact blocks_forall₂_of_others hrefl (by simp) (.inr (.inl ⟨hd, rfl, rfl, by simp⟩))
  · refine exec_blocks_forall₂ hrefl (fun {u v} hv => ?_) h
    obtain hsame | ⟨hd, hhd, -⟩ | hfield := hv.hdrIn
    · exact .inl hsame
    · exact absurd ⟨hd, hhd⟩ hi
    · exact .inr (.inr hfield)

/-- What may stand in the `HDR_IN` of a block before and after a step of `s`. -/
def HdrInByStep (s : State) (b b' : Block) : Prop :=
  b'.hdrIn = b.hdrIn ∨
    (∃ σ, s.session = some σ ∧ σ.ended = false ∧ σ.state = .idle ∧ σ.block = b.cfg.hdrBase ∧
      b'.hdrIn = σ.txHeader) ∨
    (s.hostFree = true ∧ ∃ c rest, s.calls = c :: rest ∧ HdrInByCall c.block c.op b b')

theorem step_hdrIn {t : State} (h : step s = .next t) :
    List.Forall₂ (HdrInByStep s) s.pipelineTurn.blocks t.blocks := by
  refine step_blocks_forall₂ (fun _ => .inl rfl) ?_ ?_ h
  · intro c rest u v hfree hc hbase hk
    have hcall : List.Forall₂ (HdrInByCall c.block c.op) u.blocks v.blocks := hbase ▸ exec_hdrIn hk
    exact hcall.imp fun _ _ hb => .inr (.inr ⟨hfree, c, rest, hc, hb⟩)
  · intro σ u v hσ hrun hbase hv
    obtain hsame | ⟨hidle, htx⟩ := hv.hdrIn
    · exact .inl hsame
    · exact .inr (.inl ⟨σ, hσ, hrun, hidle, hbase.symm, htx⟩)

/-- Settles O52: the turn leaves `HDR_IN`, and the rest of the step changes it by its three writers only. -/
theorem headerInputsChangeOnlyWhenWritten : Obligations.HeaderInputsChangeOnlyWhenWritten := by
  intro s t k b b' h hb hb' hne
  have hturn : s.pipelineTurn.blocks[k]? = some b.turn := by
    rw [pipelineTurn_blocks, List.getElem?_map, hb]
    rfl
  obtain ⟨c, hc, hstep⟩ := forall₂_getElem? (step_hdrIn h) hturn
  obtain rfl : b' = c := Option.some.inj (hb'.symm.trans hc)
  simp only [HdrInByStep, HdrInByCall, Block.turn_hdrIn, Block.turn_cfg] at hstep
  obtain hsame | hsession | ⟨hfree, c, rest, hcall, hsame | ⟨hd, hbase, hop, hw⟩ | ⟨f, w, hop, hw⟩⟩ := hstep
  · exact absurd hsame hne
  · exact .inl hsession
  · exact absurd hsame hne
  · exact .inr ⟨hfree, c, rest, hcall, .inl ⟨hd, by rw [hbase, ← hop], hw⟩⟩
  · exact .inr ⟨hfree, c, rest, hcall, .inr ⟨f, w, hop, hw⟩⟩

/-! #### The codec, the turn and the next call -/

/-- An operation hands back one result in every state, or is refused for one reason in every state. -/
def AnswersAlike (k : State → Answer) : Prop :=
  (∃ r, ∀ s, k s = .next (s.finish r)) ∨ ∃ e, ∀ s, k s = .refused e

theorem answersAlike_finish (r : Result) : AnswersAlike fun s => .next (s.finish r) := .inl ⟨r, fun _ => rfl⟩

/-- A refusal that the operands decide comes in every state or in none. -/
theorem answersAlike_guard {c : Prop} [Decidable c] {e : Refusal} {k : State → Answer} (hk : AnswersAlike k) :
    AnswersAlike fun s => if c then .refused e else k s := by
  by_cases hc : c
  · exact .inr ⟨e, fun _ => if_pos hc⟩
  · simpa [hc] using hk

/-- What a codec operation answers is fixed by its operands: width checks, then a result. -/
theorem exec_codec_answersAlike {i : Instr} (hi : Codec i) : AnswersAlike (exec i) := by
  cases i
  case encode => exact answersAlike_guard (answersAlike_finish _)
  case decode => exact answersAlike_guard (answersAlike_finish _)
  case pack => exact answersAlike_guard (answersAlike_guard (answersAlike_finish _))
  case unpack => exact answersAlike_guard (answersAlike_guard (answersAlike_finish _))
  case flagOf => exact answersAlike_guard (answersAlike_finish _)
  all_goals exact hi.elim

/-- Settles O11: an operation that answers alike in every state and goes through hands back one result. -/
theorem codecIsFunctionOfOperands : Obligations.CodecIsFunctionOfOperands := by
  intro i s t hi h
  obtain ⟨r, hr⟩ | ⟨e, he⟩ := exec_codec_answersAlike hi
  · obtain rfl := Answer.next_inj ((hr s).symm.trans h)
    exact ⟨rfl, hr⟩
  · cases (he s).symm.trans h

/-- Settles O54: each block moves as `turn_moved` says, and the turn is nothing else. -/
theorem pipelineReachesOnlyItsRegisters : Obligations.PipelineReachesOnlyItsRegisters := by
  intro s
  refine ⟨s.toBlock.turn, s.others.map Block.turn, rfl, turn_moved s.toBlock, ?_⟩
  exact List.forall₂_map_right_iff.2 (List.forall₂_same.2 fun b _ => turn_moved b)

/-- With the host free and no call left a step is the pipelines' turn. -/
theorem step_of_no_call (hfree : s.hostFree = true) (hc : s.calls = []) : step s = .next s.pipelineTurn := by
  simp [step, filter_running_none hfree, hc]

/-- With the host free a step is the next call, on the block it names, after the pipelines' turn. -/
theorem step_of_call {c : Call} {rest : List Call} (hfree : s.hostFree = true) (hc : s.calls = c :: rest) :
    step s = if c.op.wellFormed then (s.pipelineTurn.setCalls rest).onBlock c.block (exec c.op)
      else .refused .illFormed := by
  simp [step, filter_running_none hfree, hc]

/-- Settles O55: `step_of_call`, and where `onBlock` finds the block the call names. -/
theorem stepInvokesTheNextCall : Obligations.StepInvokesTheNextCall := by
  intro s hfree
  refine ⟨step_of_no_call hfree, fun i rest hc hwf => ?_, fun c rest hc hwf hnone => ?_, fun c rest hc hwf => ?_⟩
  · rw [step_of_call hfree hc, if_pos hwf]
    exact atBlock_here (by simp)
  · rw [step_of_call hfree hc, if_pos hwf]
    have hhand := hnone s.toBlock (List.mem_cons_self)
    refine atBlock_nowhere (by simpa using hhand) fun b hb => ?_
    obtain ⟨a, ha, rfl⟩ := List.mem_map.1 (show b ∈ s.others.map Block.turn from hb)
    simpa using hnone a (List.mem_cons_of_mem _ ha)
  · rw [step_of_call hfree hc, if_neg (by simp [hwf])]

/-- The state that is about to run a record has no running session. -/
theorem withFetchWord_hostFree {nbits w : Nat} {i : Instr} (h : decodeTableWord nbits w = some i) :
    (s.withFetchWord nbits w).hostFree = true := by
  unfold State.hostFree
  split
  · rfl
  · next σ hσ =>
    simp only [State.withFetchWord, h] at hσ
    exact (Option.filter_eq_some_iff.1 hσ).2

/-- Settles O57: the placed record is the next call on the block at hand, so O55 says what the step is. -/
theorem stepRunsTheDecodedRecord : Obligations.StepRunsTheDecodedRecord := by
  intro s nbits w i h hwf
  obtain ⟨-, hcall, -, -⟩ := stepInvokesTheNextCall _ (withFetchWord_hostFree (s := s) h)
  have hstep := hcall i s.calls (by simp [State.withFetchWord, h]) hwf
  rw [hstep]
  simp only [State.withFetchWord, h]
  rfl

end Sys2Proof.Machine

/-!
### The proofs of the family "memory"

The queues behind the register space, and who may reach the registers at all (spec/20_memory.md R66, R67).
-/

namespace Sys2Proof.Machine

variable {s : State} {i : Instr} {σ : Session}

/-! #### A running session keeps the registers -/

theorem hostFree_of_running (hσ : s.session = some σ) (hrun : σ.ended = false) : s.hostFree = false := by
  simp [State.hostFree, hσ, hrun]

theorem whenHostFree_of_busy {a : Answer} (h : s.hostFree = false) :
    s.whenHostFree a = .refused .interleavedSessions := by
  simp [State.whenHostFree, h]

/-- Every register operation, and SESSION.RUN, asks first whether the host is free. -/
theorem exec_eq_whenHostFree (hi : TouchesRegisters i) (s : State) : ∃ a, exec i s = s.whenHostFree a := by
  cases i
  case regWr32 | regWr64 | regRd32 | regRd64 | hdrWrite | hdrRead | wqPush | rqPop | enStart | pollRead | sessionRun =>
    exact ⟨_, rfl⟩
  all_goals exact hi.elim

/-- Settles O35: the guard that every such operation stands behind is shut. -/
theorem runningSessionKeepsRegisters : Obligations.RunningSessionKeepsRegisters := by
  intro i s σ hi hσ hrun
  obtain ⟨a, ha⟩ := exec_eq_whenHostFree hi s
  rw [ha, whenHostFree_of_busy (hostFree_of_running hσ hrun)]

/-! #### One push, one pop -/

theorem wqFull_of_unbounded (h : s.cfg.queueDepth = none) : s.wqFull = false := by
  simp [State.wqFull, h]

/-- A push with room in the queue and no transfer under way (R174). -/
theorem exec_wqPush_of_room {b : Beat} (hs : HostMayAccess s) (hroom : s.wqFull = false) :
    exec (.wqPush b) s = .next ((s.enqueue b).finish .done) := by
  obtain ⟨hfree, hopen⟩ := hs
  simp [exec, execWqPush, State.pushWq, whenHostFree_of_free hfree, beforeStart_of_open hopen, hroom]

/-- A pop of a queue that is not empty hands back its head (R175). -/
theorem exec_rqPop_of_cons {b : Beat} {rest : List Beat} (hfree : s.hostFree = true) (hrq : s.rq = b :: rest) :
    exec .rqPop s = .next { s with rq := rest, result := .u64 b } := by
  simp [exec, execRqPop, State.popRq, whenHostFree_of_free hfree, hrq, State.finish]

/-! #### Pushes and pops one after another -/

/-- Into a queue without bound every push goes through, and each beat stands behind the ones before it. -/
theorem execAll_wqPush (bs : List Beat) (hs : HostMayAccess s) (hdepth : s.cfg.queueDepth = none) :
    ∃ t, execAll (bs.map .wqPush) s = .next t ∧ t.wq = s.wq ++ bs := by
  induction bs generalizing s with
  | nil => exact ⟨s, rfl, (List.append_nil _).symm⟩
  | cons b bs ih =>
    have hpush : exec (.wqPush b) s = .next ((s.enqueue b).finish .done) :=
      exec_wqPush_of_room hs (wqFull_of_unbounded hdepth)
    obtain ⟨t, ht, hwq⟩ := ih (s := (s.enqueue b).finish .done) hs hdepth
    refine ⟨t, ?_, ?_⟩
    · rw [List.map_cons, execAll, hpush, onNext_next, ht]
    · rw [hwq]
      exact List.append_assoc s.wq [b] bs

/-- Pops past `before` reach the beat behind it: each takes one beat off the front and leaves the host free. -/
theorem execAll_rqPop (before after : List Beat) (b : Beat) (hfree : s.hostFree = true)
    (hrq : s.rq = before ++ b :: after) :
    execAll (List.replicate (before.length + 1) .rqPop) s = .next { s with rq := after, result := .u64 b } := by
  induction before generalizing s with
  | nil => rw [List.length_nil, List.replicate_succ, execAll, exec_rqPop_of_cons hfree hrq, onNext_next]; rfl
  | cons a before ih =>
    rw [List.length_cons, List.replicate_succ, execAll, exec_rqPop_of_cons hfree hrq, onNext_next]
    exact ih (s := { s with rq := before ++ b :: after, result := .u64 a }) hfree rfl

/-- Settles O31: a push appends at the end of `WQ`, a pop takes from the front of `RQ`. -/
theorem queuesAreFirstInFirstOut : Obligations.QueuesAreFirstInFirstOut :=
  ⟨fun bs _ hs hdepth => execAll_wqPush bs hs hdepth,
    fun before after b _ hfree hrq => execAll_rqPop before after b hfree hrq⟩

end Sys2Proof.Machine

/-!
### The proofs of the family "encoding"

The record form of a call (notes/assumptions/2.md; spec/30_encoding.md R80, R81): a reader takes back what its writer
wrote, and answers only with calls that are well formed.
-/

namespace Sys2Proof

variable {α β : Type} {p : Reader α} {f : α → Reader β} {a : α} {b : β} {bs cs : List Byte}

/-! #### Which bytes a reader takes -/

/-- The reader takes exactly the bytes `bs` for the value `a`, whatever comes after them. -/
def Reader.Takes (p : Reader α) (bs : List Byte) (a : α) : Prop :=
  ∀ rest, p (bs ++ rest) = .ok (a, rest)

theorem Reader.takes_give (a : α) : (Reader.give a).Takes [] a := fun _ => rfl

theorem Reader.Takes.andThen (hp : p.Takes bs a) (hf : (f a).Takes cs b) : (p.andThen f).Takes (bs ++ cs) b := by
  intro rest
  rw [List.append_assoc, Reader.andThen_ok (hp _), hf]

/-- The last operand of a value: what was read is handed on at once. -/
theorem Reader.Takes.andThen_give {g : α → β} (hp : p.Takes bs a) :
    (p.andThen fun a => Reader.give (g a)).Takes bs (g a) := fun rest => Reader.andThen_ok (hp rest)

theorem readFrac_takes {n : Nat} (h : fracInRange n = true) : (readLE 1).Takes (writeLE 1 n) n := by
  intro rest
  have hn : n ≤ 255 := of_decide_eq_true h
  exact readLE_writeLE 1 n rest (by omega)

theorem readNat_takes (n : Nat) : readNat.Takes (writeNat n) n := readNat_writeNat n

theorem readByte_takes (v : Byte) : readByte.Takes (writeByte v) v := readByte_writeByte v

theorem readU32_takes (v : Word32) : readU32.Takes (writeU32 v) v := readU32_writeU32 v

theorem readU64_takes (v : Word64) : readU64.Takes (writeU64 v) v := readU64_writeU64 v

theorem readFlag_takes (v : Bool) : readFlag.Takes (writeFlag v) v := readFlag_writeFlag v

theorem readList_takes {w : α → List Byte} {as : List α} (h : ∀ a ∈ as, p.Takes (w a) a) :
    (readList p).Takes (writeList w as) as := fun rest => readList_writeList p w as rest h

theorem readBytes_takes (vs : List Byte) : (readList readByte).Takes (writeList writeByte vs) vs :=
  readList_takes fun v _ => readByte_takes v

theorem readWidths_takes (ws : List Nat) : (readList readNat).Takes (writeList writeNat ws) ws :=
  readList_takes fun w _ => readNat_takes w

theorem readLane_takes {l : Lane} (h : fracInRange l.frac = true) : readLane.Takes (writeLane l) l := by
  rw [writeLane, List.append_assoc]
  exact (readU64_takes _).andThen <| (readNat_takes _).andThen (readFrac_takes h).andThen_give

theorem readHeader_takes (h : Header) : readHeader.Takes (writeHeader h) h := by
  simp only [writeHeader, List.append_assoc]
  exact (readU32_takes _).andThen <| (readU32_takes _).andThen <| (readU32_takes _).andThen <|
    (readU32_takes _).andThen <| (readU32_takes _).andThen <| (readU32_takes _).andThen (readU32_takes _).andThen_give

/-! #### The record of a call -/

/-- The row an operation has names the reader of its operands. -/
theorem readOperands_takes {i : Instr} (h : i.wellFormed = true) : (readOperands i.row).Takes (writeOperands i) i := by
  cases i with
  | encode v w f =>
    rw [writeOperands, List.append_assoc]
    exact (readU64_takes v).andThen <| (readNat_takes w).andThen (readFrac_takes h).andThen_give
  | decode r w => exact (readU64_takes r).andThen (readNat_takes w).andThen_give
  | pack ls f =>
    have hls : ∀ l ∈ ls, readLane.Takes (writeLane l) l := fun l hl => readLane_takes (List.all_eq_true.1 h l hl)
    exact (readList_takes hls).andThen (readFlag_takes f).andThen_give
  | unpack r ws => exact (readU64_takes r).andThen (readWidths_takes ws).andThen_give
  | flagOf r ws => exact (readU64_takes r).andThen (readWidths_takes ws).andThen_give
  | toBeats vs => exact (readBytes_takes vs).andThen_give
  | serPush v => exact (readByte_takes v).andThen_give
  | fromBeats vs => exact (readList_takes fun v _ => readU64_takes v).andThen_give
  | regWr32 n v => exact (readNat_takes n).andThen (readU32_takes v).andThen_give
  | regWr64 n v => exact (readNat_takes n).andThen (readU64_takes v).andThen_give
  | regRd32 n => exact (readNat_takes n).andThen_give
  | regRd64 n => exact (readNat_takes n).andThen_give
  | hdrWrite hd => exact (readHeader_takes hd).andThen_give
  | wqPush v => exact (readU64_takes v).andThen_give
  | sessionRun hd vs => exact (readHeader_takes hd).andThen (readBytes_takes vs).andThen_give
  | validate vs us => exact (readBytes_takes vs).andThen (readBytes_takes us).andThen_give
  | desPop | hdrRead | rqPop | enStart | pollRead => exact Reader.takes_give _

/-- One byte holds the row. -/
theorem toNat_rowByte (i : Instr) : (BitVec.ofNat 8 i.row).toNat = i.row := by
  cases i <;> rfl

theorem decodeCall_takes {i : Instr} (h : i.wellFormed = true) : decodeCall.Takes (encodeCall i) i := by
  refine (readByte_takes (BitVec.ofNat 8 i.row)).andThen (f := fun v => readOperands v.toNat) ?_
  rw [toNat_rowByte]
  exact readOperands_takes h

/-- Settles O58: each operand is taken off the front in the order in which it was written. -/
theorem decodingARecordGivesTheCall : Obligations.DecodingARecordGivesTheCall :=
  fun _ rest h => decodeCall_takes h rest

/-! #### What a reader can answer -/

/-- Every value the reader answers has the property. -/
def Reader.Yields (p : Reader α) (P : α → Prop) : Prop :=
  ∀ bs rest a, p bs = .ok (a, rest) → P a

variable {P : α → Prop} {Q : β → Prop}

theorem Reader.yields_true (p : Reader α) : p.Yields fun _ => True := fun _ _ _ _ => trivial

theorem Reader.yields_give (h : P a) : (Reader.give a).Yields P := by
  rintro bs rest _ ⟨⟩
  exact h

theorem Reader.Yields.andThen (hp : p.Yields P) (hf : ∀ a, P a → (f a).Yields Q) : (p.andThen f).Yields Q := by
  intro bs rest b hb
  unfold Reader.andThen at hb
  split at hb
  · next a mid ha => exact hf a (hp bs mid a ha) mid rest b hb
  · cases hb

/-- Where nothing needs to be known of the first value. -/
theorem Reader.yields_andThen (hf : ∀ a, (f a).Yields Q) : (p.andThen f).Yields Q :=
  p.yields_true.andThen fun a _ => hf a

theorem readLE_yields (k : Nat) : (readLE k).Yields (· < 256 ^ k) := by
  induction k with
  | zero => rintro bs rest n ⟨⟩; simp
  | succ k ih =>
    intro bs rest n h
    cases bs with
    | nil => cases h
    | cons b bs =>
      unfold readLE at h
      split at h
      · next m mid hm =>
        cases h
        have hlt := ih bs _ m hm
        have hb := b.isLt
        rw [pow_succ]
        omega
      · cases h

theorem readFrac_yields : (readLE 1).Yields (fracInRange · = true) := fun bs rest n h =>
  decide_eq_true (Nat.le_of_lt_succ (readLE_yields 1 bs rest n h))

theorem readMany_yields (hp : p.Yields P) (n : Nat) : (readMany p n).Yields (∀ a ∈ ·, P a) := by
  induction n with
  | zero => exact Reader.yields_give (List.forall_mem_nil P)
  | succ n ih =>
    exact hp.andThen fun a ha => ih.andThen fun as has => Reader.yields_give (List.forall_mem_cons.2 ⟨ha, has⟩)

theorem readList_yields (hp : p.Yields P) : (readList p).Yields (∀ a ∈ ·, P a) :=
  Reader.yields_andThen (readMany_yields hp)

theorem readLane_yields : readLane.Yields (fracInRange ·.frac = true) :=
  Reader.yields_andThen fun _ => Reader.yields_andThen fun _ =>
    readFrac_yields.andThen fun _ hf => Reader.yields_give hf

/-- Only `ENCODE` and `PACK` have operands that could be out of their type. -/
theorem readOperands_yields (row : Nat) : (readOperands row).Yields (·.wellFormed = true) := by
  match row with
  | 1 =>
    exact Reader.yields_andThen fun _ => Reader.yields_andThen fun _ =>
      readFrac_yields.andThen fun _ hf => Reader.yields_give hf
  | 3 =>
    exact (readList_yields readLane_yields).andThen fun ls hls =>
      Reader.yields_andThen fun _ => Reader.yields_give (List.all_eq_true.2 hls)
  | 2 | 4 | 5 | 10 | 11 | 20 | 21 =>
    exact Reader.yields_andThen fun _ => Reader.yields_andThen fun _ => Reader.yields_give rfl
  | 6 | 7 | 8 | 12 | 13 | 14 | 16 => exact Reader.yields_andThen fun _ => Reader.yields_give rfl
  | 9 | 15 | 17 | 18 | 19 => exact Reader.yields_give rfl
  | 0 | _ + 22 => exact fun _ _ _ h => nomatch h

/-- Settles O59: `F` is read from one byte, and nothing else can be out of its type. -/
theorem decodedCallsAreWellFormed : Obligations.DecodedCallsAreWellFormed :=
  Reader.yields_andThen fun v => readOperands_yields v.toNat

/-- Settles O60, by running the decoder. -/
theorem sampleRecordsDecode : Obligations.SampleRecordsDecode :=
  ⟨rfl, rfl, rfl, rfl, rfl, rfl, rfl, rfl⟩

end Sys2Proof

/-!
### The proofs of the family "fixedpoint"

The fixed-point codec (spec/40_fixedpoint.md). A field is read through its place in the word: the number
`x / 2 ^ offset % 2 ^ width`. Sign extension is the balanced remainder `Int.bmod`, and truncation toward zero is a fact
about rationals; every statement of the family follows from these three.
-/

namespace Sys2Proof.Machine

/-! #### The five operations, as their checks and their result -/

/-- The word PACK answers (R116). -/
def packWord (lanes : List Lane) (flag : Bool) : Word64 :=
  flagBit flag (lanes.map Lane.width).sum ||| packLanes lanes

theorem exec_encode (v : F64) (w f : Nat) (s : State) :
    exec (.encode v w f) s =
      if 64 < w then .refused .badWidth else .next { s with result := .u64 (encodeField v w f) } := rfl

theorem exec_decode (raw : Word64) (w : Nat) (s : State) :
    exec (.decode raw w) s =
      if w < 1 ∨ 64 < w then .refused .badWidth else .next { s with result := .i64 (decodeField raw w) } := rfl

theorem exec_pack (lanes : List Lane) (flag : Bool) (s : State) :
    exec (.pack lanes flag) s =
      if ∃ l ∈ lanes, l.width < 1 ∨ 63 < l.width then .refused .badWidth
      else if 64 < (lanes.map Lane.width).sum + 1 then .refused .layoutTooWide
      else .next { s with result := .u64 (packWord lanes flag) } := by
  simp only [exec, execPack, List.any_eq_true, Bool.or_eq_true, decide_eq_true_eq]
  rfl

theorem exec_unpack (raw : Word64) (ws : List Nat) (s : State) :
    exec (.unpack raw ws) s =
      if ∃ w ∈ ws, w < 1 ∨ 64 < w then .refused .badWidth
      else if 64 < ws.sum then .refused .layoutTooWide
      else .next { s with result := .i64s (unpackFields raw ws) } := by
  simp only [exec, execUnpack, List.any_eq_true, Bool.or_eq_true, decide_eq_true_eq]
  rfl

/-- FLAGOF reads bit `S` of the word as a number. -/
theorem exec_flagOf (raw : Word64) (ws : List Nat) (s : State) :
    exec (.flagOf raw ws) s =
      if 63 < ws.sum then .refused .layoutTooWide
      else .next { s with result := .flag (raw.toNat / 2 ^ ws.sum % 2 = 1) } := by
  rw [← Nat.testBit_eq_decide_div_mod_eq]
  rfl

/-- Widths that all lie in range pass the width check. -/
theorem not_exists_out_of_range {α : Type} {as : List α} {width : α → Nat} {top : Nat}
    (h : ∀ a ∈ as, 1 ≤ width a ∧ width a ≤ top) : ¬∃ a ∈ as, width a < 1 ∨ top < width a := by
  rintro ⟨a, ha, hbad⟩
  have := h a ha
  omega

theorem exec_encode_of_le {w : Nat} (h : w ≤ 64) (v : F64) (f : Nat) (s : State) :
    exec (.encode v w f) s = .next { s with result := .u64 (encodeField v w f) } := by
  rw [exec_encode, if_neg (by omega)]

theorem exec_decode_of_width {w : Nat} (h : 1 ≤ w ∧ w ≤ 64) (raw : Word64) (s : State) :
    exec (.decode raw w) s = .next { s with result := .i64 (decodeField raw w) } := by
  rw [exec_decode, if_neg (by omega)]

theorem exec_unpack_of_widths {ws : List Nat} (h : ∀ w ∈ ws, 1 ≤ w ∧ w ≤ 64) (hsum : ws.sum ≤ 64) (raw : Word64)
    (s : State) : exec (.unpack raw ws) s = .next { s with result := .i64s (unpackFields raw ws) } := by
  rw [exec_unpack, if_neg (not_exists_out_of_range h), if_neg (by omega)]

section Layout

variable {lanes : List Lane} (h : LayoutValid (lanes.map Lane.width))

include h

theorem lane_width_of_layoutValid {i : Nat} {l : Lane} (hl : lanes[i]? = some l) : 1 ≤ l.width ∧ l.width ≤ 63 :=
  h.1 _ (List.mem_map_of_mem (List.mem_of_getElem? hl))

theorem exec_pack_of_layoutValid (flag : Bool) (s : State) :
    exec (.pack lanes flag) s = .next { s with result := .u64 (packWord lanes flag) } := by
  obtain ⟨hwidth, hsum⟩ := h
  have hlanes := not_exists_out_of_range fun l (hl : l ∈ lanes) => hwidth l.width (List.mem_map_of_mem hl)
  rw [exec_pack, if_neg hlanes, if_neg (by omega)]

theorem exec_unpack_of_layoutValid (raw : Word64) (s : State) :
    exec (.unpack raw (lanes.map Lane.width)) s =
      .next { s with result := .i64s (unpackFields raw (lanes.map Lane.width)) } := by
  obtain ⟨hwidth, hsum⟩ := h
  have hle : ∀ w ∈ lanes.map Lane.width, 1 ≤ w ∧ w ≤ 64 := fun w hw => by
    have := hwidth w hw
    omega
  exact exec_unpack_of_widths hle (by omega) raw s

theorem exec_flagOf_of_layoutValid (raw : Word64) (s : State) :
    exec (.flagOf raw (lanes.map Lane.width)) s =
      .next { s with result := .flag (raw.toNat / 2 ^ (lanes.map Lane.width).sum % 2 = 1) } := by
  obtain ⟨-, hsum⟩ := h
  rw [exec_flagOf, if_neg (by omega)]

end Layout

/-! #### The field ENCODE answers -/

/-- The mask is the remainder, which is never negative. -/
theorem cast_maskInt (w : Nat) (x : ℤ) : (maskInt w x : ℤ) = x % 2 ^ w :=
  Int.toNat_of_nonneg (Int.emod_nonneg x (by positivity))

theorem maskInt_lt (w : Nat) (x : ℤ) : maskInt w x < 2 ^ w := by
  zify
  rw [cast_maskInt]
  exact Int.emod_lt_of_pos x (by positivity)

/-- In the domain or outside it, ENCODE answers a word below `2 ^ W` (R110, R111). -/
theorem toNat_encodeField_lt (v : F64) (w f : Nat) : (encodeField v w f).toNat < 2 ^ w := by
  unfold encodeField
  split
  · exact (Nat.mod_le _ _).trans_lt (maskInt_lt w _)
  · exact (Nat.mod_le _ _).trans_lt (Nat.mod_lt _ (Nat.two_pow_pos w))

/-- In its domain ENCODE answers the target modulo `2 ^ W` (R110). -/
theorem toNat_encodeField {v : F64} {f w : Nat} (h : w ≤ 64) (hdom : EncodeDomain v f) :
    ((encodeField v w f).toNat : ℤ) = encodeTarget v f % 2 ^ w := by
  have hfit : maskInt w (truncScaled v f) < 2 ^ 64 :=
    (maskInt_lt w _).trans_le (Nat.pow_le_pow_right (by norm_num) h)
  rw [encodeField, if_pos ((encodeDomain_iff v f).1 hdom), BitVec.toNat_ofNat, Nat.mod_eq_of_lt hfit, cast_maskInt,
    encodeTarget_eq_truncScaled]

/-! #### Sign extension -/

/-- The low bits as a number (R9). -/
theorem toNat_lowBits {w : Nat} (h : w ≤ 64) (raw : Word64) : (lowBits raw w).toNat = raw.toNat % 2 ^ w := by
  have hw : 2 ^ w ≤ 2 ^ 64 := Nat.pow_le_pow_right (by norm_num) h
  have hpos := Nat.two_pow_pos w
  rw [lowBits, BitVec.toNat_and, BitVec.toNat_ofNat, Nat.mod_eq_of_lt (by omega), Nat.and_two_pow_sub_one_eq_mod]

/-- The two shifts of R113 take the balanced remainder modulo `2 ^ W`: the left one scales the low bits by
`2 ^ (64 - W)` modulo `2 ^ 64`, the arithmetic right one divides the scale out again. -/
theorem toInt_decodeField {w : Nat} (h : 1 ≤ w ∧ w ≤ 64) (raw : Word64) :
    (decodeField raw w).toInt = (raw.toNat : ℤ).bmod (2 ^ w) := by
  obtain ⟨hpos, hle⟩ := h
  have hsplit : 2 ^ 64 = 2 ^ (64 - w) * 2 ^ w := by rw [← pow_add, Nat.sub_add_cancel hle]
  have hscaled : (lowBits raw w <<< (64 - w)).toInt =
      ((2 ^ (64 - w) : Nat) : ℤ) * ((raw.toNat % 2 ^ w : Nat) : ℤ).bmod (2 ^ w) := by
    rw [BitVec.toInt_shiftLeft, toNat_lowBits hle, Nat.shiftLeft_eq, Nat.mul_comm, Nat.cast_mul, hsplit]
    exact Int.mod_bmod_mul_of_pos _ _ (Nat.two_pow_pos _) (dvd_pow_self 2 (by omega))
  rw [decodeField, BitVec.toInt_sshiftRight, hscaled, Int.shiftRight_eq_div_pow,
    Int.mul_ediv_cancel_left _ (by positivity), Int.natCast_emod, Int.emod_bmod]

/-- The balanced remainder as R113 words it: the low bits, less `2 ^ W` from half the range on. -/
theorem bmod_two_pow_eq_ite {w : Nat} (h : 1 ≤ w) (n : Nat) :
    (n : ℤ).bmod (2 ^ w) =
      if n % 2 ^ w < 2 ^ (w - 1) then ((n % 2 ^ w : Nat) : ℤ) else ((n % 2 ^ w : Nat) : ℤ) - 2 ^ w := by
  obtain ⟨k, rfl⟩ : ∃ k, w = k + 1 := ⟨w - 1, by omega⟩
  have hhalf : ((2 ^ (k + 1) : Nat) + 1 : ℤ) / 2 = 2 ^ k := by
    push_cast
    rw [pow_succ]
    omega
  rw [Int.bmod_def, hhalf, Nat.add_sub_cancel]
  norm_cast

/-- The balanced remainder as R114 words it: a shift by half the range before and after the remainder. -/
theorem bmod_two_pow_eq_shift {w : Nat} (h : 1 ≤ w) (t : ℤ) :
    t.bmod (2 ^ w) = (t + 2 ^ (w - 1)) % 2 ^ w - 2 ^ (w - 1) := by
  obtain ⟨k, rfl⟩ : ∃ k, w = k + 1 := ⟨w - 1, by omega⟩
  have hpos : (0 : ℤ) < 2 ^ (k + 1) := by positivity
  have hnonneg := Int.emod_nonneg (t + 2 ^ k) hpos.ne'
  have hlt := Int.emod_lt_of_pos (t + 2 ^ k) hpos
  have hdvd : (2 ^ (k + 1) : ℤ) ∣ (t + 2 ^ k) % 2 ^ (k + 1) - (t + 2 ^ k) := Int.dvd_emod_sub_self
  have hdouble : (2 : ℤ) ^ (k + 1) = 2 * 2 ^ k := pow_succ' 2 k
  rw [Int.bmod_eq_iff (Nat.two_pow_pos _), Nat.add_sub_cancel]
  push_cast
  refine ⟨by omega, by omega, ?_⟩
  convert hdvd using 1
  ring

/-- A number is its own balanced remainder exactly when it lies in the signed range. -/
theorem bmod_two_pow_eq_self_iff {w : Nat} (h : 1 ≤ w) (t : ℤ) :
    t.bmod (2 ^ w) = t ↔ -2 ^ (w - 1) ≤ t ∧ t ≤ 2 ^ (w - 1) - 1 := by
  obtain ⟨k, rfl⟩ : ∃ k, w = k + 1 := ⟨w - 1, by omega⟩
  have hdouble : (2 : ℤ) ^ (k + 1) = 2 * 2 ^ k := pow_succ' 2 k
  rw [Int.bmod_eq_iff (Nat.two_pow_pos _), Nat.add_sub_cancel, sub_self]
  push_cast
  have := dvd_zero ((2 : ℤ) ^ (k + 1))
  omega

/-- DECODE looks at the low bits only. -/
theorem decodeField_congr {w : Nat} (h : w ≤ 64) {a b : Word64} (hab : a.toNat % 2 ^ w = b.toNat % 2 ^ w) :
    decodeField a w = decodeField b w := by
  have hlow : lowBits a w = lowBits b w := BitVec.eq_of_toNat_eq (by rw [toNat_lowBits h, toNat_lowBits h, hab])
  rw [decodeField, hlow, decodeField]

/-- What DECODE gives for the field ENCODE answered: the target, wrapped. -/
theorem toInt_decodeField_encodeField {v : F64} {w f : Nat} (h : 1 ≤ w ∧ w ≤ 64) (hdom : EncodeDomain v f) :
    (decodeField (encodeField v w f) w).toInt = (encodeTarget v f).bmod (2 ^ w) := by
  rw [toInt_decodeField h, toNat_encodeField h.2 hdom]
  exact_mod_cast Int.emod_bmod (encodeTarget v f) (2 ^ w)

theorem encodeOverflows_eq_false_iff (v : F64) (w f : Nat) :
    encodeOverflows v w f = false ↔ -2 ^ (w - 1) ≤ encodeTarget v f ∧ encodeTarget v f ≤ 2 ^ (w - 1) - 1 := by
  simp [encodeOverflows, encodeTarget_eq_truncScaled]

/-! #### Truncation toward zero -/

/-- Truncation loses less than one, and never away from zero. -/
theorem ratTrunc_bounds (q : ℚ) : |(ratTrunc q : ℚ) - q| < 1 ∧ |(ratTrunc q : ℚ)| ≤ |q| := by
  unfold ratTrunc
  split
  · next hq =>
    have hfloor : (0 : ℚ) ≤ ⌊q⌋ := by exact_mod_cast Int.floor_nonneg.2 hq
    rw [abs_of_nonneg hfloor, abs_of_nonneg hq, abs_lt]
    have := Int.floor_le q
    have := Int.lt_floor_add_one q
    exact ⟨⟨by linarith, by linarith⟩, by linarith⟩
  · next hq =>
    have hceil : (⌈q⌉ : ℚ) ≤ 0 := by exact_mod_cast Int.ceil_le.2 (by push_cast; linarith)
    rw [abs_of_nonpos hceil, abs_of_neg (not_le.1 hq), abs_lt]
    have := Int.le_ceil q
    have := Int.ceil_lt_add_one q
    exact ⟨⟨by linarith, by linarith⟩, by linarith⟩

/-- An integer is not cut. -/
theorem ratTrunc_intCast (n : ℤ) : ratTrunc n = n := by
  simp [ratTrunc]

/-- A value that denotes an integer of 64 bits is in the domain with no fractional bits, and is its own target. -/
theorem encodeTarget_of_ratValue_eq {v : F64} {d : Word64} (hfin : v.finite = true) (h : ratValue v = d.toInt) :
    EncodeDomain v 0 ∧ encodeTarget v 0 = d.toInt := by
  have ht : encodeTarget v 0 = d.toInt := by rw [encodeTarget, h, pow_zero, mul_one, ratTrunc_intCast]
  have hlow := BitVec.le_toInt d
  have hhigh := BitVec.toInt_lt (x := d)
  rw [EncodeDomain, ht]
  exact ⟨⟨hfin, hlow, by omega⟩, rfl⟩

/-- ENCODE of the integer DECODE gave answers the field again. -/
theorem toNat_encodeField_of_decoded {v : F64} {w : Nat} {x : Word64} (hw : 1 ≤ w ∧ w ≤ 64) (hfin : v.finite = true)
    (h : ratValue v = (decodeField x w).toInt) : (encodeField v w 0).toNat = x.toNat % 2 ^ w := by
  obtain ⟨hdom, htarget⟩ := encodeTarget_of_ratValue_eq hfin h
  have hfield := toNat_encodeField hw.2 hdom
  rw [htarget, toInt_decodeField hw] at hfield
  have hmod := Int.bmod_emod (x := x.toNat) (m := 2 ^ w)
  push_cast at hmod
  rw [hmod] at hfield
  exact_mod_cast hfield

/-! #### Fields side by side -/

/-- An upper and a lower part below their bounds make a number below the product. -/
theorem mul_two_pow_add_lt {a b m n : Nat} (ha : a < 2 ^ m) (hb : b < 2 ^ n) : a * 2 ^ n + b < 2 ^ (m + n) :=
  calc a * 2 ^ n + b < (a + 1) * 2 ^ n := by rw [Nat.succ_mul]; omega
    _ ≤ 2 ^ m * 2 ^ n := Nat.mul_le_mul_right _ ha
    _ = 2 ^ (m + n) := (pow_add 2 m n).symm

/-- Two fields combined by OR, the upper one shifted over the lower one, as a number. -/
theorem toNat_shiftLeft_or {hi lo : Word64} {m n : Nat} (hhi : hi.toNat < 2 ^ m) (hlo : lo.toNat < 2 ^ n)
    (hfit : m + n ≤ 64) : (hi <<< n ||| lo).toNat = hi.toNat * 2 ^ n + lo.toNat := by
  have hword : hi.toNat * 2 ^ n < 2 ^ 64 :=
    calc hi.toNat * 2 ^ n ≤ hi.toNat * 2 ^ n + lo.toNat := Nat.le_add_right _ _
      _ < 2 ^ (m + n) := mul_two_pow_add_lt hhi hlo
      _ ≤ 2 ^ 64 := Nat.pow_le_pow_right (by norm_num) hfit
  rw [BitVec.toNat_or, BitVec.toNat_shiftLeft, Nat.shiftLeft_eq, Nat.mod_eq_of_lt hword, ← Nat.shiftLeft_eq,
    Nat.shiftLeft_add_eq_or_of_lt hlo]

/-- The low `m + n` bits are an upper and a lower part exactly when the bits from `n` on are the one and the low `n`
bits the other. -/
theorem mod_two_pow_add_eq_iff {x a b m n : Nat} (hb : b < 2 ^ n) :
    x % 2 ^ (m + n) = a * 2 ^ n + b ↔ x / 2 ^ n % 2 ^ m = a ∧ x % 2 ^ n = b := by
  have hdiv : x / 2 ^ n % 2 ^ m = x % 2 ^ (m + n) / 2 ^ n := by rw [pow_add, Nat.mod_mul_left_div_self]
  have hmod : x % 2 ^ n = x % 2 ^ (m + n) % 2 ^ n := by rw [pow_add, Nat.mod_mul_left_mod]
  rw [hdiv, hmod, Nat.div_mod_unique (Nat.two_pow_pos n), and_iff_left hb, Nat.add_comm b, Nat.mul_comm a, eq_comm]

/-- A number below 2 is its own bit. -/
theorem toNat_decide_mod_two {n : Nat} (h : n < 2) : (if decide (n % 2 = 1) then 1 else 0) = n := by
  interval_cases n <;> rfl

/-! #### PACK -/

/-- The model shifts the flag as a number; the same bit is a word shifted. -/
theorem flagBit_eq_shiftLeft (flag : Bool) (n : Nat) : flagBit flag n = (if flag then 1 else 0 : Word64) <<< n := by
  cases flag
  · simp [flagBit]
  · apply BitVec.eq_of_toNat_eq
    simp [flagBit]

/-- The lanes leave the bits above them zero. -/
theorem toNat_packLanes_lt {lanes : List Lane} (h : (lanes.map Lane.width).sum ≤ 64) :
    (packLanes lanes).toNat < 2 ^ (lanes.map Lane.width).sum := by
  induction lanes with
  | nil => exact Nat.one_pos
  | cons l rest ih =>
    rw [List.map_cons, List.sum_cons] at h ⊢
    have hfield := toNat_encodeField_lt l.value l.width l.frac
    have hrest := ih (by omega)
    exact (toNat_shiftLeft_or hfield hrest h).trans_lt (mul_two_pow_add_lt hfield hrest)

/-- The lanes of a layout that fits are an upper field over the fields after it. -/
theorem toNat_packLanes_cons {l : Lane} {rest : List Lane} (h : l.width + (rest.map Lane.width).sum ≤ 64) :
    (packLanes (l :: rest)).toNat =
      (encodeField l.value l.width l.frac).toNat * 2 ^ (rest.map Lane.width).sum + (packLanes rest).toNat :=
  toNat_shiftLeft_or (toNat_encodeField_lt l.value l.width l.frac) (toNat_packLanes_lt (by omega)) h

/-- A word has the packed lanes in its low bits exactly when it has every lane's field in its place. -/
theorem mod_eq_toNat_packLanes_iff {lanes : List Lane} (x : Nat) (h : (lanes.map Lane.width).sum ≤ 64) :
    x % 2 ^ (lanes.map Lane.width).sum = (packLanes lanes).toNat ↔
      ∀ (i : Nat) (l : Lane), lanes[i]? = some l →
        x / 2 ^ fieldOffset (lanes.map Lane.width) i % 2 ^ l.width = (encodeField l.value l.width l.frac).toNat := by
  induction lanes with
  | nil => simp [packLanes, Nat.mod_one]
  | cons l rest ih =>
    rw [List.map_cons, List.sum_cons] at h ⊢
    rw [toNat_packLanes_cons h, mod_two_pow_add_eq_iff (toNat_packLanes_lt (by omega)), ih (by omega)]
    constructor
    · rintro ⟨hfirst, hrest⟩ i k hk
      cases i with
      | zero =>
        obtain rfl : l = k := Option.some.inj hk
        exact hfirst
      | succ i => exact hrest i k hk
    · exact fun hall => ⟨hall 0 l rfl, fun i k hk => hall (i + 1) k hk⟩

section Layout

variable {lanes : List Lane} {flag : Bool} (h : LayoutValid (lanes.map Lane.width))

include h

theorem toNat_packLanes_lt_of_layoutValid : (packLanes lanes).toNat < 2 ^ (lanes.map Lane.width).sum :=
  toNat_packLanes_lt (by have := h.2; omega)

/-- The packed word as a number: the flag over the lanes. -/
theorem toNat_packWord : (packWord lanes flag).toNat =
    (if flag then 1 else 0) * 2 ^ (lanes.map Lane.width).sum + (packLanes lanes).toNat := by
  have hsum := h.2
  have hflag : (if flag then 1 else 0 : Word64).toNat = if flag then 1 else 0 := by cases flag <;> rfl
  rw [← hflag, packWord, flagBit_eq_shiftLeft]
  refine toNat_shiftLeft_or (m := 1) ?_ (toNat_packLanes_lt_of_layoutValid h) (by omega)
  cases flag <;> decide

/-- The flag stands at bit `S` with zeros above (R116). -/
theorem packWord_div : (packWord lanes flag).toNat / 2 ^ (lanes.map Lane.width).sum = if flag then 1 else 0 := by
  rw [toNat_packWord h, Nat.mul_comm, Nat.mul_add_div (Nat.two_pow_pos _),
    Nat.div_eq_of_lt (toNat_packLanes_lt_of_layoutValid h), Nat.add_zero]

theorem packWord_mod : (packWord lanes flag).toNat % 2 ^ (lanes.map Lane.width).sum = (packLanes lanes).toNat := by
  rw [toNat_packWord h, Nat.mul_add_mod_self_right, Nat.mod_eq_of_lt (toNat_packLanes_lt_of_layoutValid h)]

/-- Every lane's field stands at its offset (R116). -/
theorem packWord_field {i : Nat} {l : Lane} (hl : lanes[i]? = some l) :
    (packWord lanes flag).toNat / 2 ^ fieldOffset (lanes.map Lane.width) i % 2 ^ l.width =
      (encodeField l.value l.width l.frac).toNat := by
  have hsum := h.2
  exact (mod_eq_toNat_packLanes_iff _ (by omega)).1 (packWord_mod h) i l hl

end Layout

/-! #### UNPACK -/

/-- UNPACK's result for a width is DECODE's for the word shifted down by the offset (R119). -/
theorem getElem?_unpackFields (raw : Word64) (ws : List Nat) (i : Nat) :
    (unpackFields raw ws)[i]? = ws[i]?.map (decodeField (raw >>> fieldOffset ws i)) := by
  induction ws generalizing i with
  | nil => rfl
  | cons w ws ih =>
    cases i with
    | zero => rfl
    | succ i => exact ih i

theorem length_unpackFields (raw : Word64) (ws : List Nat) : (unpackFields raw ws).length = ws.length := by
  induction ws with
  | nil => rfl
  | cons w ws ih => exact congrArg (· + 1) ih

theorem getElem?_unpackFields_lane {lanes : List Lane} {i : Nat} {l : Lane} (hl : lanes[i]? = some l) (raw : Word64) :
    (unpackFields raw (lanes.map Lane.width))[i]? =
      some (decodeField (raw >>> fieldOffset (lanes.map Lane.width) i) l.width) := by
  rw [getElem?_unpackFields, List.getElem?_map, hl]
  rfl

/-! #### The statements -/

/-- Settles O1: the refusal is the first check, and `encodeField` answers the target masked. -/
theorem encodeMasksExactTruncation : Obligations.EncodeMasksExactTruncation := fun v w f s =>
  ⟨fun h => by rw [exec_encode, if_pos h],
    fun h => ⟨encodeField v w f, exec_encode_of_le h v f s, toNat_encodeField_lt v w f, toNat_encodeField h⟩⟩

/-- Settles O2: `decodeField` takes the balanced remainder, which is the low bits sign-extended. -/
theorem decodeSignExtendsLowBits : Obligations.DecodeSignExtendsLowBits := by
  refine fun raw w s => ⟨fun h => by rw [exec_decode, if_pos h], fun h => ?_⟩
  refine ⟨decodeField raw w, exec_decode_of_width h raw s, ?_⟩
  rw [toInt_decodeField h, bmod_two_pow_eq_ite h.1]

/-- Settles O3: the balanced remainder of the masked target is that of the target. -/
theorem decodeAfterEncodeWraps : Obligations.DecodeAfterEncodeWraps := by
  intro v w f s hpos hle hdom
  refine ⟨_, _, exec_encode_of_le hle v f s, exec_decode_of_width ⟨hpos, hle⟩ _ s, ?_⟩
  rw [toInt_decodeField_encodeField ⟨hpos, hle⟩ hdom, encodeOverflows_eq_false_iff]
  exact ⟨bmod_two_pow_eq_shift hpos _, bmod_two_pow_eq_self_iff hpos _, bmod_two_pow_eq_self_iff hpos _⟩

/-- Settles O4: a target that fits comes back, and truncation loses less than one unit of `2 ^ F`. -/
theorem recoveredValueWithinOneLsb : Obligations.RecoveredValueWithinOneLsb := by
  intro v w f s hpos hle hdom hlow hhigh
  refine ⟨_, _, exec_encode_of_le hle v f s, exec_decode_of_width ⟨hpos, hle⟩ _ s, ?_⟩
  rw [toInt_decodeField_encodeField ⟨hpos, hle⟩ hdom, (bmod_two_pow_eq_self_iff hpos _).2 ⟨hlow, hhigh⟩]
  obtain ⟨hnear, hsmall⟩ := ratTrunc_bounds (ratValue v * 2 ^ f)
  have hunit : (0 : ℚ) < 2 ^ f := by positivity
  have hdiff : (encodeTarget v f : ℚ) / 2 ^ f - ratValue v = (encodeTarget v f - ratValue v * 2 ^ f) / 2 ^ f := by
    field_simp
  rw [hdiff, abs_div, abs_div, abs_of_pos hunit, div_le_iff₀ hunit]
  rw [abs_mul, abs_of_pos hunit] at hsmall
  exact ⟨div_lt_div_of_pos_right hnear hunit, hsmall⟩

/-- Settles O5: the refusals are the two checks, and the packed word is the flag over the fields. -/
theorem packPlacesFlagAndLanes : Obligations.PackPlacesFlagAndLanes := by
  refine fun lanes flag s => ⟨fun h => by rw [exec_pack, if_pos h], fun hwidth hsum => ?_, fun h => ?_⟩
  · rw [exec_pack, if_neg (not_exists_out_of_range hwidth), if_pos hsum]
  · refine ⟨packWord lanes flag, exec_pack_of_layoutValid h flag s, packWord_div h, fun i l hl => ?_⟩
    have hwidth := lane_width_of_layoutValid h hl
    exact ⟨_, exec_encode_of_le (by omega) _ _ s, packWord_field h hl⟩

/-- Settles O6: the refusals are the two checks, and the results are read off `getElem?_unpackFields`. -/
theorem unpackDecodesEachField : Obligations.UnpackDecodesEachField := by
  refine fun raw ws s => ⟨fun h => by rw [exec_unpack, if_pos h], fun hwidth hsum => ?_, fun hwidth hsum => ?_⟩
  · rw [exec_unpack, if_neg (not_exists_out_of_range hwidth), if_pos hsum]
  · refine ⟨_, exec_unpack_of_widths hwidth hsum raw s, length_unpackFields raw ws, fun i w hw => ?_⟩
    refine ⟨decodeField (raw >>> fieldOffset ws i) w, ?_, ?_⟩
    · rw [getElem?_unpackFields, hw, Option.map_some]
    · exact exec_decode_of_width (hwidth w (List.mem_of_getElem? hw)) _ s

/-- Settles O7: the balanced remainder modulo 2 is 0 or -1. -/
theorem oneBitFieldIsZeroOrMinusOne : Obligations.OneBitFieldIsZeroOrMinusOne := by
  intro raw ws s hwidth hsum
  have hwidths : ∀ w ∈ 1 :: ws, 1 ≤ w ∧ w ≤ 64 := List.forall_mem_cons.2 ⟨by omega, hwidth⟩
  refine ⟨_, _, exec_unpack_of_widths hwidths (by rw [List.sum_cons]; omega) raw s, ?_⟩
  have hbit : raw.getLsbD ws.sum = decide (raw.toNat / 2 ^ ws.sum % 2 = 1) := Nat.testBit_eq_decide_div_mod_eq
  rw [toInt_decodeField (by omega), bmod_two_pow_eq_ite le_rfl, hbit, widthSum, BitVec.toNat_ushiftRight,
    Nat.shiftRight_eq_div_pow]
  obtain hclear | hset := Nat.mod_two_eq_zero_or_one (raw.toNat / 2 ^ ws.sum)
  · simp [hclear]
  · simp [hset]

/-- Settles O8: FLAGOF has one check and reads one bit. -/
theorem flagOfAnswersBitS : Obligations.FlagOfAnswersBitS := exec_flagOf

/-- Settles O9: DECODE looks at the low bits of the shifted word only, and these are the field ENCODE answered. -/
theorem unpackAfterPack : Obligations.UnpackAfterPack := by
  intro lanes flag s h _
  refine ⟨_, _, exec_pack_of_layoutValid h flag s, exec_unpack_of_layoutValid h _ s, ?_, fun i l hl => ?_⟩
  · rw [exec_flagOf_of_layoutValid h, packWord_div h]
    cases flag <;> rfl
  · have hwidth := lane_width_of_layoutValid h hl
    refine ⟨_, _, ?_, exec_encode_of_le (by omega) _ _ s, exec_decode_of_width (by omega) _ s⟩
    rw [getElem?_unpackFields_lane hl]
    refine congrArg some (decodeField_congr (by omega) ?_)
    rw [BitVec.toNat_ushiftRight, Nat.shiftRight_eq_div_pow, packWord_field h hl,
      Nat.mod_eq_of_lt (toNat_encodeField_lt l.value l.width l.frac)]

/-- Settles O10: the word has in its place every field packed again, so the lanes are its low bits, and the flag is
the one bit above them. -/
theorem packAfterUnpack : Obligations.PackAfterUnpack := by
  intro raw lanes rs b s h hraw hunpack hflag hvalues
  have hsum := h.2
  rw [exec_unpack_of_layoutValid h] at hunpack
  rw [exec_flagOf_of_layoutValid h] at hflag
  obtain rfl : rs = unpackFields raw (lanes.map Lane.width) := by simpa using Answer.next_inj hunpack
  obtain rfl : b = decide (raw.toNat / 2 ^ (lanes.map Lane.width).sum % 2 = 1) := by
    simpa using Answer.next_inj hflag
  have hlow : raw.toNat % 2 ^ (lanes.map Lane.width).sum = (packLanes lanes).toNat := by
    refine (mod_eq_toNat_packLanes_iff _ (by omega)).2 fun i l hl => ?_
    obtain ⟨hfrac, hfin, d, hd, hvalue⟩ := hvalues i l hl
    obtain rfl := Option.some.inj ((getElem?_unpackFields_lane hl raw).symm.trans hd)
    have hwidth := lane_width_of_layoutValid h hl
    rw [hfrac, toNat_encodeField_of_decoded (by omega) hfin hvalue, BitVec.toNat_ushiftRight, Nat.shiftRight_eq_div_pow]
  have htop : raw.toNat / 2 ^ (lanes.map Lane.width).sum < 2 := by
    rwa [Nat.div_lt_iff_lt_mul (Nat.two_pow_pos _), ← pow_succ']
  have hword : packWord lanes (decide (raw.toNat / 2 ^ (lanes.map Lane.width).sum % 2 = 1)) = raw := by
    apply BitVec.eq_of_toNat_eq
    rw [toNat_packWord h, ← hlow, toNat_decide_mod_two htop, Nat.div_add_mod']
  rw [exec_pack_of_layoutValid h, hword]

end Sys2Proof.Machine

/-!
### The proofs of the family "beatframer"

The beat framer (spec/41_beatframer.md). A beat is read through its eight bytes in the chosen order, `beatByte`: pushing
a byte moves every byte one place forward and puts the new one last, popping is pushing a zero, and a beat is determined
by its bytes. Everything about whole payloads follows from unframing being the list of these bytes.
-/

namespace Sys2Proof.Machine

variable {s : State} {order : Config.ByteOrder}

/-! #### The bytes of a beat -/

/-- Byte `k` of a beat, in the order in which the bytes of its group were pushed (R50, R51, R84). -/
def beatByte (order : Config.ByteOrder) (x : Beat) (k : Nat) : Byte := x.extractLsb' (8 * bytePlace order k) 8

theorem desByte_eq_beatByte (order : Config.ByteOrder) (x : Beat) : desByte order x = beatByte order x 0 := by
  cases order <;> rfl

/-- A pop leaves what the push of a zero byte would. -/
theorem desNext_eq_serStep (order : Config.ByteOrder) (x : Beat) : desNext order x = serStep order x 0 := by
  cases order <;> simp [desNext, serStep]

/-- A push moves the byte in place `k + 1` to place `k`. -/
theorem beatByte_serStep_of_lt {k : Nat} (hk : k < 7) (order : Config.ByteOrder) (x : Beat) (b : Byte) :
    beatByte order (serStep order x b) k = beatByte order x (k + 1) := by
  refine BitVec.eq_of_getLsbD_eq fun i hi => ?_
  cases order
  case lsbFirst =>
    have hold : 8 + (8 * k + i) = 8 * (k + 1) + i := by omega
    simp [beatByte, bytePlace, serStep, hi, hold, show 8 * k + i < 56 by omega]
  case msbFirst =>
    have hold : 8 * (7 - k) + i - 8 = 8 * (7 - (k + 1)) + i := by omega
    have hnew : b.getLsbD (8 * (7 - k) + i) = false := BitVec.getLsbD_of_ge _ _ (by omega)
    simp only [beatByte, bytePlace, serStep, BitVec.getLsbD_extractLsb', BitVec.getLsbD_or, BitVec.getLsbD_shiftLeft,
      BitVec.getLsbD_setWidth, hold, hnew]
    simp [show 8 * (7 - k) + i < 64 by omega, show ¬8 * (7 - k) + i < 8 by omega]

/-- A push puts its byte in the last place. -/
theorem beatByte_serStep_last (order : Config.ByteOrder) (x : Beat) (b : Byte) :
    beatByte order (serStep order x b) 7 = b := by
  refine BitVec.eq_of_getLsbD_eq fun i hi => ?_
  cases order
  case lsbFirst =>
    have hold : x.getLsbD (8 + (56 + i)) = false := BitVec.getLsbD_of_ge _ _ (by omega)
    simp [beatByte, bytePlace, serStep, hi, hold, show 56 + i < 64 by omega]
  case msbFirst => simp [beatByte, bytePlace, serStep, hi, show i < 64 by omega]

/-- Bit `n` of a beat stands in one of its bytes. -/
theorem getLsbD_eq_getLsbD_beatByte {n : Nat} (hn : n < 64) (order : Config.ByteOrder) (x : Beat) :
    x.getLsbD n = (beatByte order x (bytePlace order (n / 8))).getLsbD (n % 8) := by
  have hplace : bytePlace order (bytePlace order (n / 8)) = n / 8 := by
    cases order
    case lsbFirst => rfl
    case msbFirst => simp only [bytePlace]; omega
  rw [beatByte, hplace, BitVec.getLsbD_extractLsb', Nat.div_add_mod, decide_eq_true (Nat.mod_lt n (by decide)),
    Bool.true_and]

theorem bytePlace_lt {k : Nat} (hk : k < 8) (order : Config.ByteOrder) : bytePlace order k < 8 := by
  cases order <;> simp only [bytePlace] <;> omega

theorem beat_eq_of_beatByte_eq {x y : Beat} (h : ∀ k < 8, beatByte order x k = beatByte order y k) : x = y := by
  refine BitVec.eq_of_getLsbD_eq fun n hn => ?_
  have hbyte := h (bytePlace order (n / 8)) (bytePlace_lt (by omega) order)
  rw [getLsbD_eq_getLsbD_beatByte hn order x, getLsbD_eq_getLsbD_beatByte hn order y, hbyte]

/-- The other order reads the bytes of a beat backwards. -/
theorem beatByte_of_ne {ser des : Config.ByteOrder} (h : ser ≠ des) (x : Beat) {k : Nat} (hk : k < 8) :
    beatByte des x k = beatByte ser x (7 - k) := by
  have hplace : bytePlace des k = bytePlace ser (7 - k) := by
    cases ser <;> cases des
    case lsbFirst.msbFirst => rfl
    case msbFirst.lsbFirst => simp only [bytePlace]; omega
    all_goals exact absurd rfl h
  rw [beatByte, beatByte, hplace]

/-! #### Eight pops of a beat -/

@[simp] theorem length_desPops (order : Config.ByteOrder) (n : Nat) (x : Beat) : (desPops order n x).length = n := by
  induction n generalizing x with
  | zero => rfl
  | succ n ih => rw [desPops, List.length_cons, ih]

/-- The bytes popped from a beat are its bytes in order (R145, R150). -/
theorem desPops_eq_map_range {n : Nat} (hn : n ≤ 8) (order : Config.ByteOrder) (x : Beat) :
    desPops order n x = (List.range n).map (beatByte order x) := by
  induction n generalizing x with
  | zero => rfl
  | succ n ih =>
    rw [desPops, ih (by omega), desByte_eq_beatByte, desNext_eq_serStep, List.range_succ_eq_map, List.map_cons,
      List.map_map]
    refine congrArg _ (List.map_congr_left fun k hk => ?_)
    have hk := List.mem_range.1 hk
    exact beatByte_serStep_of_lt (by omega) order x 0

theorem getElem?_desPops {k : Nat} (hk : k < 8) (order : Config.ByteOrder) (x : Beat) :
    (desPops order 8 x)[k]? = some (beatByte order x k) := by
  rw [desPops_eq_map_range le_rfl, List.getElem?_map, List.getElem?_range hk, Option.map_some]

theorem desPops_injective (order : Config.ByteOrder) : Function.Injective (desPops order 8) := by
  intro x y h
  refine beat_eq_of_beatByte_eq (order := order) fun k hk => Option.some.inj ?_
  rw [← getElem?_desPops hk, ← getElem?_desPops hk, h]

theorem desPops_serStep (order : Config.ByteOrder) (x : Beat) (b : Byte) :
    desPops order 8 (serStep order x b) = (desPops order 8 x).drop 1 ++ [b] := by
  simp [desPops_eq_map_range, List.range_succ, beatByte_serStep_of_lt, beatByte_serStep_last]

/-- Bytes pushed into a beat drive as many of its own out. -/
theorem desPops_foldl_serStep (order : Config.ByteOrder) (group : List Byte) (x : Beat) :
    desPops order 8 (group.foldl (serStep order) x) = (desPops order 8 x ++ group).drop group.length := by
  induction group generalizing x with
  | nil => simp
  | cons b group ih =>
    have hfirst : (desPops order 8 x ++ b :: group).drop 1 = (desPops order 8 x).drop 1 ++ [b] ++ group := by
      rw [List.drop_append_of_le_length (by simp), List.append_assoc, List.singleton_append]
    rw [List.foldl_cons, ih, desPops_serStep, List.length_cons, Nat.add_comm, ← List.drop_drop, hfirst]

/-- Eight bytes pushed are the bytes of the beat, whatever the accumulator held (R143). -/
theorem desPops_foldl_serStep_of_length {group : List Byte} (h : group.length = 8) (order : Config.ByteOrder)
    (x : Beat) :
    desPops order 8 (group.foldl (serStep order) x) = group := by
  rw [desPops_foldl_serStep, List.drop_left' (by rw [length_desPops, h])]

theorem foldl_serStep_eq_serGroup {group : List Byte} (h : group.length = 8) (order : Config.ByteOrder) (x : Beat) :
    group.foldl (serStep order) x = serGroup order group := by
  refine desPops_injective order ?_
  rw [serGroup, desPops_foldl_serStep_of_length h, desPops_foldl_serStep_of_length h]

theorem serGroup_desPops (order : Config.ByteOrder) (x : Beat) : serGroup order (desPops order 8 x) = x :=
  desPops_injective order (desPops_foldl_serStep_of_length (length_desPops order 8 x) order 0)

theorem desNext_iterate (order : Config.ByteOrder) (n : Nat) (x : Beat) :
    (desNext order)^[n] x = (List.replicate n 0).foldl (serStep order) x := by
  induction n generalizing x with
  | zero => rfl
  | succ n ih => rw [Function.iterate_succ_apply, ih, desNext_eq_serStep, List.replicate_succ, List.foldl_cons]

/-- All of a beat is shifted out by eight pops (R146). -/
theorem desNext_iterate_eight (order : Config.ByteOrder) (x : Beat) : (desNext order)^[8] x = 0 := by
  rw [desNext_iterate, foldl_serStep_eq_serGroup List.length_replicate]
  cases order <;> rfl

theorem getLast?_desPops (order : Config.ByteOrder) (n : Nat) (x : Beat) :
    (desPops order (n + 1) x).getLast? = some (desByte order ((desNext order)^[n] x)) := by
  induction n generalizing x with
  | zero => rfl
  | succ n ih => rw [desPops, List.getLast?_cons, ih, Option.getD_some, Function.iterate_succ_apply]

/-! #### Whole payloads -/

theorem unframeBeats_cons (order : Config.ByteOrder) (x : Beat) (beats : List Beat) :
    unframeBeats order (x :: beats) = desPops order 8 x ++ unframeBeats order beats := rfl

theorem length_unframeBeats (order : Config.ByteOrder) (beats : List Beat) :
    (unframeBeats order beats).length = 8 * beats.length := by
  induction beats with
  | nil => rfl
  | cons x beats ih => rw [unframeBeats_cons, List.length_append, length_desPops, ih, List.length_cons]; omega

/-- Byte `k` of beat `g` is byte `8 g + k` of the payload. -/
theorem getElem?_unframeBeats {k : Nat} (hk : k < 8) (order : Config.ByteOrder) (beats : List Beat) (g : Nat) :
    (unframeBeats order beats)[8 * g + k]? = beats[g]?.map fun x => beatByte order x k := by
  induction beats generalizing g with
  | nil => rfl
  | cons x beats ih =>
    rw [unframeBeats_cons]
    cases g with
    | zero =>
      rw [Nat.mul_zero, Nat.zero_add, List.getElem?_append_left (by rwa [length_desPops]), getElem?_desPops hk]
      rfl
    | succ g =>
      rw [List.getElem?_append_right (by rw [length_desPops]; omega), length_desPops, List.getElem?_cons_succ, ← ih]
      congr 1
      omega

theorem frameBeats_append {group : List Byte} (h : group.length = 8) (order : Config.ByteOrder) (rest : List Byte) :
    frameBeats order (group ++ rest) = serGroup order group :: frameBeats order rest := by
  match group, h with
  | [_, _, _, _, _, _, _, _], _ => rfl

/-- Framing undoes unframing (R148). -/
theorem frameBeats_unframeBeats (order : Config.ByteOrder) (beats : List Beat) :
    frameBeats order (unframeBeats order beats) = beats := by
  induction beats with
  | nil => rfl
  | cons x beats ih => rw [unframeBeats_cons, frameBeats_append (length_desPops order 8 x), serGroup_desPops, ih]

/-- Unframing undoes framing (R148): a payload is made of the bytes of its beats. -/
theorem unframeBeats_frameBeats (order : Config.ByteOrder) {p : List Byte} (h : p.length % 8 = 0) :
    unframeBeats order (frameBeats order p) = p := by
  induction hn : p.length / 8 generalizing p with
  | zero =>
    obtain rfl : p = [] := List.eq_nil_of_length_eq_zero (by omega)
    rfl
  | succ n ih =>
    have hgroup : (p.take 8).length = 8 := List.length_take_of_le (by omega)
    have hrest : (p.drop 8).length = p.length - 8 := List.length_drop
    rw [← List.take_append_drop 8 p, frameBeats_append hgroup, unframeBeats_cons, ih (by omega) (by omega), serGroup,
      desPops_foldl_serStep_of_length hgroup]

/-! #### The operations at a beat size of 8 -/

section Operations

variable (h8 : s.cfg.bytesPerBeat = 8)
include h8

theorem exec_toBeats_of_mod {p : List Byte} (hp : p.length % 8 = 0) :
    exec (.toBeats p) s = .next ((s.afterFraming (frameBeats s.cfg.serOrder p)).finish
      (.beats (frameBeats s.cfg.serOrder p))) := by
  rw [exec, execToBeats, withBeatOf8_of_eq h8, if_pos hp]

theorem exec_toBeats_of_mod_ne {p : List Byte} (hp : p.length % 8 ≠ 0) :
    exec (.toBeats p) s = .next (s.finish (.shapeError p.length)) := by
  rw [exec, execToBeats, withBeatOf8_of_eq h8, if_neg hp]

theorem exec_fromBeats (beats : List Beat) :
    exec (.fromBeats beats) s =
      .next ((s.afterUnframing beats).finish (.bytes (unframeBeats s.cfg.desOrder beats))) := by
  rw [exec, execFromBeats, withBeatOf8_of_eq h8]

theorem exec_serPush (b : Byte) : exec (.serPush b) s = .next ((s.pushByte b).finish .done) := by
  rw [exec, execSerPush, withBeatOf8_of_eq h8]

theorem exec_desPop :
    exec .desPop s = .next (s.popByte.finish (.u8 (desByte s.cfg.desOrder s.readyToPop.desShr))) := by
  rw [exec, execDesPop, withBeatOf8_of_eq h8]

/-- A push within a group (R142). -/
theorem exec_serPush_of_lt (hcnt : s.serCnt < 8) (b : Byte) :
    exec (.serPush b) s =
      .next { s with serAcc := serStep s.cfg.serOrder s.serAcc b, serCnt := s.serCnt + 1, result := .done } := by
  simp only [exec_serPush h8, State.pushByte, State.readyToPush, if_pos hcnt, State.finish]

/-- A pop within a beat (R146). -/
theorem exec_desPop_of_lt (hcnt : s.desCnt < 8) :
    exec .desPop s = .next { s with
      desShr := desNext s.cfg.desOrder s.desShr, desCnt := s.desCnt + 1,
      result := .u8 (desByte s.cfg.desOrder s.desShr) } := by
  simp only [exec_desPop h8, State.popByte, State.readyToPop, if_pos hcnt, State.finish]

/-- Pushes within a group, one after another. -/
theorem execAll_serPush (b : Byte) (bytes : List Byte) (hcnt : s.serCnt + bytes.length < 8) :
    execAll ((b :: bytes).map .serPush) s = .next { s with
      serAcc := (b :: bytes).foldl (serStep s.cfg.serOrder) s.serAcc,
      serCnt := s.serCnt + (bytes.length + 1), result := .done } := by
  induction bytes generalizing b s with
  | nil => rw [List.map_cons, execAll, exec_serPush_of_lt h8 (by omega), onNext_next]; rfl
  | cons c bytes ih =>
    rw [List.length_cons] at hcnt
    rw [List.map_cons, execAll, exec_serPush_of_lt h8 (by omega), onNext_next,
      ih (by exact h8) c (by dsimp only; omega)]
    simp only [List.foldl_cons, List.length_cons, Nat.add_assoc, Nat.add_comm 1]

/-- Pops within a beat, one after another. -/
theorem execAll_desPop (n : Nat) (hcnt : s.desCnt + n < 8) :
    execAll (List.replicate (n + 1) .desPop) s = .next { s with
      desShr := (desNext s.cfg.desOrder)^[n + 1] s.desShr, desCnt := s.desCnt + (n + 1),
      result := .u8 (desByte s.cfg.desOrder ((desNext s.cfg.desOrder)^[n] s.desShr)) } := by
  induction n generalizing s with
  | zero => rw [List.replicate_succ, execAll, exec_desPop_of_lt h8 hcnt, onNext_next]; rfl
  | succ n ih =>
    rw [List.replicate_succ, execAll, exec_desPop_of_lt h8 (by omega), onNext_next,
      ih (by exact h8) (by dsimp only; omega)]
    simp only [Function.iterate_succ_apply, Nat.add_assoc, Nat.add_comm 1]

end Operations

theorem afterFraming_finish (beats : List Beat) (r : Result) :
    (s.afterFraming beats).finish r = { s with
      serAcc := beats.getLast?.getD s.serAcc, serCnt := if beats = [] then s.serCnt else 8, result := r } := by
  cases beats with
  | nil => rfl
  | cons x beats => simp [State.afterFraming, State.finish, List.getLast?_cons]

theorem afterUnframing_finish (beats : List Beat) (r : Result) :
    (s.afterUnframing beats).finish r = { s with
      desShr := if beats = [] then s.desShr else 0, desCnt := if beats = [] then s.desCnt else 8, result := r } := by
  cases beats <;> rfl

/-! #### The statements -/

/-- Settles O20: framing and unframing undo each other, and neither changes the configuration. -/
theorem framingRoundTrips : Obligations.FramingRoundTrips := by
  intro s h8 horder
  refine ⟨fun p hp => ?_, fun beats => ?_⟩
  · refine ⟨_, _, _, exec_toBeats_of_mod h8 hp, rfl, exec_fromBeats (by simpa using h8) _, ?_⟩
    simp only [State.finish_cfg, State.afterFraming_cfg, State.finish_result]
    rw [← horder, unframeBeats_frameBeats _ hp]
  · have hlen : (unframeBeats s.cfg.desOrder beats).length % 8 = 0 := by rw [length_unframeBeats, Nat.mul_mod_right]
    refine ⟨_, _, _, exec_fromBeats h8 beats, rfl, exec_toBeats_of_mod (by simpa using h8) hlen, ?_⟩
    simp only [State.finish_cfg, State.afterUnframing_cfg, State.finish_result]
    rw [horder, frameBeats_unframeBeats]

/-- Settles O12: the payload is the unframing of its beats, so the bytes stand where `getElem?_unframeBeats` says. -/
theorem toBeatsPlacesEveryByte : Obligations.ToBeatsPlacesEveryByte := by
  refine fun p s h8 => ⟨exec_toBeats_of_mod_ne h8, fun hp => ?_⟩
  refine ⟨frameBeats s.cfg.serOrder p, ?_, ?_, fun g k x hx hk => ?_⟩
  · rw [exec_toBeats_of_mod h8 hp, afterFraming_finish]
  · have hlen := length_unframeBeats s.cfg.serOrder (frameBeats s.cfg.serOrder p)
    rw [unframeBeats_frameBeats _ hp] at hlen
    omega
  · have hbyte := getElem?_unframeBeats hk s.cfg.serOrder (frameBeats s.cfg.serOrder p) g
    rwa [unframeBeats_frameBeats _ hp, hx] at hbyte

/-- Settles O15: eight bytes drive out whatever the accumulator held. -/
theorem beatIndependentOfStartingAccumulator : Obligations.BeatIndependentOfStartingAccumulator := by
  intro bytes acc s h8 hcnt hlen
  refine ⟨serGroup s.cfg.serOrder bytes, ?_, ?_⟩
  · obtain ⟨b, rest, rfl⟩ := List.exists_cons_of_length_eq_add_one hlen
    have hrest : rest.length = 7 := Nat.succ.inj hlen
    rw [execAll_serPush (by exact h8) b rest (by dsimp only; omega), foldl_serStep_eq_serGroup hlen]
    simp only [hcnt, hrest]
  · have hframe : frameBeats s.cfg.serOrder bytes = [serGroup s.cfg.serOrder bytes] := by
      simpa [frameBeats] using frameBeats_append hlen s.cfg.serOrder []
    rw [exec_toBeats_of_mod h8 (by rw [hlen]), hframe, afterFraming_finish]
    rfl

/-- Settles O16: what FROMBEATS leaves and answers, byte by byte. -/
theorem fromBeatsEmitsEveryByte : Obligations.FromBeatsEmitsEveryByte := by
  intro beats s h8
  refine ⟨unframeBeats s.cfg.desOrder beats, ?_, length_unframeBeats _ _, fun g k x hx hk => ?_⟩
  · rw [exec_fromBeats h8, afterUnframing_finish]
  · rw [getElem?_unframeBeats hk, hx]
    rfl

/-- Settles O19: eight pops push eight zeros into the beat, and the last of them answers the last byte. -/
theorem eightPopsEmptyTheBeat : Obligations.EightPopsEmptyTheBeat := by
  intro beat s h8
  refine ⟨desByte s.cfg.desOrder ((desNext s.cfg.desOrder)^[7] beat), unframeBeats s.cfg.desOrder [beat], ?_, ?_, ?_⟩
  · rw [execAll_desPop (by exact h8) 7 (by dsimp only; omega)]
    simp only [Nat.reduceAdd, desNext_iterate_eight]
  · rw [exec_fromBeats h8, afterUnframing_finish]
    rfl
  · rw [unframeBeats, List.flatMap_singleton, getLast?_desPops]

/-- Settles O21: both payloads consist of the bytes of the same beats, which the two orders read in opposite
directions. -/
theorem mixedOrdersReverseGroups : Obligations.MixedOrdersReverseGroups := by
  intro s p h8 horder hp
  refine ⟨_, _, _, _, exec_toBeats_of_mod h8 hp, rfl, exec_fromBeats (by simpa using h8) _, rfl, ?_,
    fun g k _ hk => ?_⟩
  all_goals simp only [State.finish_cfg, State.afterFraming_cfg]
  · rw [length_unframeBeats, ← length_unframeBeats s.cfg.serOrder, unframeBeats_frameBeats _ hp]
  · have hsent := getElem?_unframeBeats (k := 7 - k) (by omega) s.cfg.serOrder (frameBeats s.cfg.serOrder p) g
    rw [unframeBeats_frameBeats _ hp] at hsent
    rw [getElem?_unframeBeats hk, show 8 * g + 7 - k = 8 * g + (7 - k) by omega, hsent]
    simp only [beatByte_of_ne horder _ hk]

/-- Settles O13: a push within a group, in either order. -/
theorem serPushShiftsByteIn : Obligations.SerPushShiftsByteIn := by
  intro b s h8 hcnt
  rw [exec_serPush_of_lt h8 hcnt]
  cases s.cfg.serOrder <;> rfl

/-- Settles O14: from a complete beat `readyToPush` clears both fields before the push. -/
theorem serPushOnCompleteBeatBeginsGroup : Obligations.SerPushOnCompleteBeatBeginsGroup := by
  intro b s h8 hcnt
  have hready : s.readyToPush = { s with serAcc := 0, serCnt := 0 } := if_neg (by omega)
  have hfirst := exec_serPush_of_lt (s := { s with serAcc := 0, serCnt := 0 }) h8 (Nat.zero_lt_succ 7) b
  have hpush : exec (.serPush b) s = exec (.serPush b) { s with serAcc := 0, serCnt := 0 } := by
    rw [hfirst, exec_serPush h8, State.pushByte, hready]
    rfl
  exact ⟨hpush, _, hpush.trans hfirst, rfl⟩

/-- Settles O17: a pop within a beat, in either order. -/
theorem desPopShiftsByteOut : Obligations.DesPopShiftsByteOut := by
  intro s h8 hcnt
  rw [exec_desPop_of_lt h8 hcnt]
  cases s.cfg.desOrder <;> rfl

/-- Settles O18: past the last byte `readyToPop` draws the next beat. -/
theorem desPopBeyondBeatIsOpen : Obligations.DesPopBeyondBeatIsOpen := by
  intro s h8 hcnt
  refine ⟨desNext s.cfg.desOrder (Config.unloadedBeat s.draws),
    desByte s.cfg.desOrder (Config.unloadedBeat s.draws), ?_⟩
  rw [exec_desPop h8, State.popByte, State.readyToPop, if_neg (by omega)]
  rfl

end Sys2Proof.Machine

/-!
### The proofs of the family "header_regs"

The register operations (spec/42_header_regs.md). Which register an address means is settled first, from R56 and the
distinct addresses of R62; an access at an address is then the access of that register on the block at hand. HDR.WRITE,
HDR.READ, WQ.PUSH, RQ.POP, EN.START and POLL.READ act on the same registers, so each has the same effect as the access
at the register's address.
-/

namespace Sys2Proof.Machine

variable {s : State} {cfg : Config.Params} {addr : Nat}

/-! #### The register an address means (R56) -/

/-- Each field is found at its input offset: the seven offsets differ (R26). -/
theorem find?_inOffset (base : Nat) (f : HField) :
    HField.all.find? (fun g => base + g.inOffset == base + f.inOffset) = some f := by
  cases f <;> simp [HField.all, HField.inOffset]

/-- Each field is found at its output offset (R27). -/
theorem find?_outOffset (base : Nat) (f : HField) :
    HField.all.find? (fun g => base + g.outOffset == base + f.outOffset) = some f := by
  cases f <;> simp [HField.all, HField.outOffset]

theorem find?_offset_eq_none {off : HField → Nat} {base : Nat} (h : ∀ f : HField, addr ≠ base + off f) :
    HField.all.find? (fun f => base + off f == addr) = none := by
  simpa [List.find?_eq_none] using fun f _ => (h f).symm

theorem writeTarget_inOffset (cfg : Config.Params) (f : HField) :
    writeTarget cfg .w32 (cfg.hdrBase + f.inOffset) = some (.hdrIn f) := by
  simp [writeTarget, find?_inOffset]

theorem readTarget_outOffset (cfg : Config.Params) (f : HField) :
    readTarget cfg .w32 (cfg.hdrBase + f.outOffset) = some (.hdrOut f) := by
  simp [readTarget, find?_outOffset]

theorem writeTarget_wqAddr (cfg : Config.Params) : writeTarget cfg .w64 cfg.wqAddr = some .writeQueue := by
  simp [writeTarget]

theorem readTarget_rqAddr (cfg : Config.Params) : readTarget cfg .w64 cfg.rqAddr = some .readQueue := by
  simp [readTarget]

theorem writeTarget_w32_eq_none (hf : ∀ f : HField, addr ≠ cfg.hdrBase + f.inOffset)
    (he : ¬(addr = cfg.enableAddr ∧ cfg.ctrlWidth = .w32)) : writeTarget cfg .w32 addr = none := by
  simp only [writeTarget, find?_offset_eq_none hf, if_neg he]

theorem writeTarget_w64_eq_none (hq : addr ≠ cfg.wqAddr) (he : ¬(addr = cfg.enableAddr ∧ cfg.ctrlWidth = .w64)) :
    writeTarget cfg .w64 addr = none := by
  simp only [writeTarget, if_neg hq, if_neg he]

theorem readTarget_w32_eq_none (hf : ∀ f : HField, addr ≠ cfg.hdrBase + f.outOffset)
    (hp : ¬(addr = cfg.rcountAddr ∧ cfg.pollAt = .rcount ∧ cfg.ctrlWidth = .w32)) :
    readTarget cfg .w32 addr = none := by
  simp only [readTarget, find?_offset_eq_none hf, if_neg hp]

theorem readTarget_w64_eq_none (hq : addr ≠ cfg.rqAddr)
    (hp : ¬(addr = cfg.rcountAddr ∧ cfg.pollAt = .rcount ∧ cfg.ctrlWidth = .w64)) :
    readTarget cfg .w64 addr = none := by
  simp only [readTarget, if_neg hq, if_neg hp]

theorem HField.mem_all (f : HField) : f ∈ HField.all := by cases f <;> decide

/-- The two control registers share an address with no other register of the same direction (R62). -/
theorem controlAddr_ne_of_valid (h : ConfigValid cfg) :
    (∀ f : HField, cfg.enableAddr ≠ cfg.hdrBase + f.inOffset) ∧ cfg.enableAddr ≠ cfg.wqAddr ∧
      (∀ f : HField, cfg.rcountAddr ≠ cfg.hdrBase + f.outOffset) ∧ cfg.rcountAddr ≠ cfg.rqAddr := by
  obtain ⟨-, -, -, -, hnodup, -, -⟩ := h
  obtain ⟨hinner, -, hout⟩ := List.nodup_append.1 hnodup
  obtain ⟨hbase, -, hin⟩ := List.nodup_append.1 hinner
  simp only [List.nodup_cons, List.mem_cons, not_or] at hbase
  obtain ⟨-, ⟨-, -, -, hwq, -⟩, -, ⟨hrq, -⟩, -⟩ := hbase
  exact ⟨fun f => hin _ (by simp) _ (List.mem_map_of_mem (HField.mem_all f)), Ne.symm hwq,
    fun f => hout _ (by simp) _ (List.mem_map_of_mem (HField.mem_all f)), Ne.symm hrq⟩

/-- In a valid configuration a write of `CTRL_WIDTH` bits at `ENABLE_ADDR` means `ENABLE`. -/
theorem writeTarget_enableAddr (h : ConfigValid cfg) :
    writeTarget cfg cfg.ctrlWidth cfg.enableAddr = some .enable := by
  obtain ⟨hfield, hwq, -, -⟩ := controlAddr_ne_of_valid h
  cases hw : cfg.ctrlWidth
  · simp [writeTarget, find?_offset_eq_none hfield, hw]
  · simp [writeTarget, hwq, hw]

/-- In a valid configuration a read of `CTRL_WIDTH` bits at `RCOUNT_ADDR` means `RCOUNT`, if it is the poll register. -/
theorem readTarget_rcountAddr (h : ConfigValid cfg) (hpoll : cfg.pollAt = .rcount) :
    readTarget cfg cfg.ctrlWidth cfg.rcountAddr = some .pollRcount := by
  obtain ⟨-, -, hfield, hrq⟩ := controlAddr_ne_of_valid h
  cases hw : cfg.ctrlWidth
  · simp [readTarget, find?_offset_eq_none hfield, hpoll, hw]
  · simp [readTarget, hrq, hpoll, hw]

/-! #### The block that has the address -/

/-- At an address the block at hand has a register for, the access is made there. -/
theorem atBlock_of_target {T : Type} {target : Config.Params → Option T} {k : State → Answer} {r : T}
    (h : target s.cfg = some r) : s.atBlock (fun cfg => (target cfg).isSome) k = k s :=
  atBlock_here (by simp [h])

/-- At an address no block has a register for, there is no access (R57). -/
theorem atBlock_of_no_target {T : Type} {target : Config.Params → Option T} {k : State → Answer}
    (h : ∀ b ∈ s.blocks, target b.cfg = none) :
    s.atBlock (fun cfg => (target cfg).isSome) k = .refused .unmappedAccess :=
  atBlock_nowhere (by simp [h s.toBlock List.mem_cons_self])
    fun b hb => by simp [h b (List.mem_cons_of_mem _ hb)]

/-! #### Writes outside a transfer -/

theorem setHeader_finish (h : Header) (r : Result) : (s.setHeader h).finish r = { s with hdrIn := h, result := r } := by
  simp only [State.setHeader, HField.all, List.foldl, State.setHdrIn, Header.set, Header.get, State.finish]

theorem wqFull_iff : s.wqFull = true ↔ ∃ d, s.cfg.queueDepth = some d ∧ d ≤ s.wq.length := by
  unfold State.wqFull
  split <;> simp_all

/-- A push is a 64-bit write at `WQ_ADDR` (R174). -/
theorem exec_regWr64_wqAddr (s : State) (b : Beat) : exec (.regWr64 s.cfg.wqAddr b) s = exec (.wqPush b) s := by
  have ht := writeTarget_wqAddr s.cfg
  rw [exec, exec, execRegWr64, execWqPush, atBlock_of_target ht, State.regWrite, ht]

section Writes

variable (hs : HostMayAccess s)
include hs

theorem exec_hdrWrite (h : Header) : exec (.hdrWrite h) s = .next ((s.setHeader h).finish .done) := by
  rw [exec, execHdrWrite, whenHostFree_of_free hs.1, beforeStart_of_open hs.2]

theorem exec_enStart : exec .enStart s = .next (s.started.finish .done) := by
  rw [exec, execEnStart, whenHostFree_of_free hs.1, State.start, beforeStart_of_open hs.2, onNext_next]

theorem exec_wqPush (b : Beat) :
    exec (.wqPush b) s =
      if s.wqFull then .fault .writeQueueFull else .next { s with wq := s.wq ++ [b], result := .done } := by
  split
  · next hfull =>
    rw [exec, execWqPush, whenHostFree_of_free hs.1, State.pushWq, beforeStart_of_open hs.2, if_pos hfull, onNext_fault]
  · next hroom =>
    rw [exec_wqPush_of_room hs (by simpa using hroom)]
    rfl

/-- A 32-bit write at an input offset writes that field (R170). -/
theorem exec_regWr32_inOffset (f : HField) (v : Word32) :
    exec (.regWr32 (s.cfg.hdrBase + f.inOffset) v) s = .next ((s.setHdrIn f v).finish .done) := by
  have ht := writeTarget_inOffset s.cfg f
  rw [exec, execRegWr32, whenHostFree_of_free hs.1, atBlock_of_target ht, State.regWrite, ht]
  dsimp only
  rw [beforeStart_of_open hs.2, onNext_next, BitVec.setWidth_setWidth_of_le _ (by decide), BitVec.setWidth_eq]

/-- Writes of header fields after a first call that handed back no value. -/
theorem execAll_regWr32_inOffset_finish (h : Header) (fs : List HField) :
    execAll (fs.map fun f => .regWr32 (s.cfg.hdrBase + f.inOffset) (h.get f)) (s.finish .done) =
      .next ((fs.foldl (fun s f => s.setHdrIn f (h.get f)) s).finish .done) := by
  induction fs generalizing s with
  | nil => rfl
  | cons f fs ih =>
    have hwrite := exec_regWr32_inOffset (s := s.finish .done) hs f (h.get f)
    rw [List.map_cons, execAll, ← s.finish_cfg .done, hwrite, onNext_next]
    exact ih (s := s.setHdrIn f (h.get f)) hs

/-- Writes of header fields one after another leave the fields written, in that order. -/
theorem execAll_regWr32_inOffset (h : Header) (f : HField) (fs : List HField) :
    execAll ((f :: fs).map fun f => .regWr32 (s.cfg.hdrBase + f.inOffset) (h.get f)) s =
      .next (((f :: fs).foldl (fun s f => s.setHdrIn f (h.get f)) s).finish .done) := by
  rw [List.map_cons, execAll, exec_regWr32_inOffset hs, onNext_next]
  exact execAll_regWr32_inOffset_finish (s := s.setHdrIn f (h.get f)) hs h fs

/-- A 32-bit write at `ENABLE_ADDR` has a meaning for the value 1 only (R176). -/
theorem exec_regWr32_enableAddr (hc : ConfigValid s.cfg) (hw : s.cfg.ctrlWidth = .w32) (v : Word32) :
    exec (.regWr32 s.cfg.enableAddr v) s = if v = 1 then exec .enStart s else .refused .unmappedAccess := by
  have ht := hw ▸ writeTarget_enableAddr hc
  have hv : v.setWidth 64 = 1 ↔ v = 1 := by bv_omega
  rw [exec, exec, execRegWr32, execEnStart, whenHostFree_of_free hs.1, whenHostFree_of_free hs.1,
    atBlock_of_target ht, State.regWrite, ht]
  simp only [hv]
  split <;> rfl

/-- The same of a 64-bit write where `CTRL_WIDTH` is 64. -/
theorem exec_regWr64_enableAddr (hc : ConfigValid s.cfg) (hw : s.cfg.ctrlWidth = .w64) (v : Word64) :
    exec (.regWr64 s.cfg.enableAddr v) s = if v = 1 then exec .enStart s else .refused .unmappedAccess := by
  have ht := hw ▸ writeTarget_enableAddr hc
  rw [exec, exec, execRegWr64, execEnStart, whenHostFree_of_free hs.1, whenHostFree_of_free hs.1,
    atBlock_of_target ht, State.regWrite, ht]
  dsimp only
  split <;> rfl

end Writes

/-! #### Reads -/

section Reads

variable (hfree : s.hostFree = true)
include hfree

theorem exec_hdrRead : exec .hdrRead s = .next ((s.afterHdrRead .beatCount).finish (.header s.hdrOutView)) := by
  rw [exec, execHdrRead, whenHostFree_of_free hfree]

theorem exec_pollRead : exec .pollRead s = .next ((s.noteCount s.pollValue).finish (.count s.pollValue)) := by
  rw [exec, execPollRead, whenHostFree_of_free hfree]

/-- A 32-bit read at an output offset hands back that field (R171). -/
theorem exec_regRd32_outOffset (f : HField) :
    exec (.regRd32 (s.cfg.hdrBase + f.outOffset)) s =
      .next ((s.afterHdrRead f).finish (.u32 (s.hdrOutView.get f))) := by
  have ht := readTarget_outOffset s.cfg f
  rw [exec, execRegRd32, whenHostFree_of_free hfree, atBlock_of_target ht, State.regRead, ht]
  dsimp only
  rw [BitVec.setWidth_setWidth_of_le _ (by decide), BitVec.setWidth_eq]

theorem exec_regRd32_rcountAddr (hc : ConfigValid s.cfg) (hpoll : s.cfg.pollAt = .rcount)
    (hw : s.cfg.ctrlWidth = .w32) :
    exec (.regRd32 s.cfg.rcountAddr) s =
      .next ((s.noteCount s.pollValue).finish (.u32 (s.rcountView.setWidth 32))) := by
  have ht := hw ▸ readTarget_rcountAddr hc hpoll
  rw [exec, execRegRd32, whenHostFree_of_free hfree, atBlock_of_target ht, State.regRead, ht]

theorem exec_regRd64_rcountAddr (hc : ConfigValid s.cfg) (hpoll : s.cfg.pollAt = .rcount)
    (hw : s.cfg.ctrlWidth = .w64) :
    exec (.regRd64 s.cfg.rcountAddr) s = .next ((s.noteCount s.pollValue).finish (.u64 s.rcountView)) := by
  have ht := hw ▸ readTarget_rcountAddr hc hpoll
  rw [exec, execRegRd64, whenHostFree_of_free hfree, atBlock_of_target ht, State.regRead, ht]

/-- A pop of an empty queue hands back a free value (R175). -/
theorem exec_rqPop_of_nil (hrq : s.rq = []) :
    exec .rqPop s = .next { s with draws := s.draws + 1, result := .u64 (Config.emptyPop s.draws s.pipe) } := by
  simp [exec, execRqPop, State.popRq, whenHostFree_of_free hfree, hrq, State.finish]

end Reads

/-- A pop is a 64-bit read at `RQ_ADDR` (R175). -/
theorem exec_regRd64_rqAddr (s : State) : exec (.regRd64 s.cfg.rqAddr) s = exec .rqPop s := by
  have ht := readTarget_rqAddr s.cfg
  rw [exec, exec, execRegRd64, execRqPop, atBlock_of_target ht, State.regRead, ht]

/-! #### What the host sees on hardware, and under `MIRROR_MOCK` -/

theorem hdrOutView_of_mirror (h : s.cfg.transport = .mirror) : s.hdrOutView = s.hdrIn := by
  simp only [State.hdrOutView, h]

section Hardware

variable (hw : s.cfg.transport = .hardware)
include hw

theorem hdrOutView_of_hardware : s.hdrOutView = s.hdrOut := by simp only [State.hdrOutView, hw]

theorem rcountView_of_hardware : s.rcountView = s.rcount := by simp only [State.rcountView, hw]

theorem pollValue_rcount_of_hardware (hpoll : s.cfg.pollAt = .rcount) : s.pollValue = s.rcount.toNat := by
  simp only [State.pollValue, hpoll, rcountView_of_hardware hw]

theorem pollValue_hdrOut0_of_hardware (hpoll : s.cfg.pollAt = .hdrOut0) :
    s.pollValue = s.hdrOut.beatCount.toNat := by
  simp only [State.pollValue, hpoll, hdrOutView_of_hardware hw]

/-- A count register that is not 0 ends the transfer when it is read (R221). -/
theorem noteCount_toNat_of_hardware {n : Nat} (c : BitVec n) :
    s.noteCount c.toNat = if c ≠ 0 then s.transferOver else s := by
  rw [noteCount_eq (by simp [hw])]
  simp only [ne_eq, BitVec.toNat_eq, BitVec.ofNat_eq_ofNat, BitVec.toNat_ofNat, Nat.zero_mod]

/-- Of the header reads only that of `HDR_OUT[0]` as the poll register can end the transfer. -/
theorem afterHdrRead_of_hardware (f : HField) :
    s.afterHdrRead f = if f = .beatCount ∧ s.cfg.pollAt = .hdrOut0 ∧ s.hdrOut.beatCount ≠ 0
      then s.transferOver else s := by
  unfold State.afterHdrRead
  split
  · next hpoll =>
    rw [pollValue_hdrOut0_of_hardware hw hpoll, noteCount_toNat_of_hardware hw]
    simp only [hpoll, true_and]
  · next hother => exact (if_neg fun ⟨hf, hpoll, _⟩ => hother hf hpoll).symm

end Hardware

/-! #### The statements of the family -/

/-- Settles O23: an address means one register of the block at hand, or no register of any block. -/
theorem registerWritesReachTheirRegister : Obligations.RegisterWritesReachTheirRegister := by
  intro s addr v b hc hs
  refine ⟨?_, ?_, fun hno => ?_, ?_, ?_, fun hno => ?_⟩
  · rintro f rfl
    exact exec_regWr32_inOffset hs f v
  · rintro rfl hw
    rw [exec_regWr32_enableAddr hs hc hw, exec_enStart hs]
    rfl
  · rw [exec, execRegWr32, whenHostFree_of_free hs.1, atBlock_of_no_target]
    exact fun c hcb => writeTarget_w32_eq_none (hno c hcb).1 (hno c hcb).2
  · rintro rfl
    rw [exec_regWr64_wqAddr s, exec_wqPush hs]
  · rintro rfl hw
    rw [exec_regWr64_enableAddr hs hc hw, exec_enStart hs]
    rfl
  · rw [exec, execRegWr64, whenHostFree_of_free hs.1, atBlock_of_no_target]
    exact fun c hcb => writeTarget_w64_eq_none (hno c hcb).1 (hno c hcb).2

/-- Settles O24: the same of reads, on hardware, where the host sees the registers themselves. -/
theorem registerReadsReachTheirRegister : Obligations.RegisterReadsReachTheirRegister := by
  intro s addr hc hfree hw
  have hcount (hpoll : s.cfg.pollAt = .rcount) : s.noteCount s.pollValue =
      if s.rcount ≠ 0 then s.transferOver else s := by
    rw [pollValue_rcount_of_hardware hw hpoll, noteCount_toNat_of_hardware hw]
  refine ⟨?_, ?_, fun hno => ?_, ?_, ?_, ?_, fun hno => ?_⟩
  · rintro f rfl
    rw [exec_regRd32_outOffset hfree, afterHdrRead_of_hardware hw, hdrOutView_of_hardware hw]
    rfl
  · rintro rfl hpoll hwidth
    rw [exec_regRd32_rcountAddr hfree hc hpoll hwidth, hcount hpoll, rcountView_of_hardware hw]
    rfl
  · rw [exec, execRegRd32, whenHostFree_of_free hfree, atBlock_of_no_target]
    exact fun c hcb => readTarget_w32_eq_none (hno c hcb).1 (hno c hcb).2
  · rintro b rest rfl hrq
    rw [exec_regRd64_rqAddr, exec_rqPop_of_cons hfree hrq]
  · rintro rfl hrq
    exact ⟨_, (exec_regRd64_rqAddr s).trans (exec_rqPop_of_nil hfree hrq)⟩
  · rintro rfl hpoll hwidth
    rw [exec_regRd64_rcountAddr hfree hc hpoll hwidth, hcount hpoll, rcountView_of_hardware hw]
    rfl
  · rw [exec, execRegRd64, whenHostFree_of_free hfree, atBlock_of_no_target]
    exact fun c hcb => readTarget_w64_eq_none (hno c hcb).1 (hno c hcb).2

/-- Settles O26: `State.setHeader` is by definition the seven writes in field order. -/
theorem headerWriteIsSevenWrites : Obligations.HeaderWriteIsSevenWrites := by
  intro h s hs
  rw [← setHeader_finish]
  exact ⟨exec_hdrWrite hs h, execAll_regWr32_inOffset hs h .beatCount HField.all.tail⟩

/-- Settles O27: HDR.READ and REG.RD32 hand back the same view of `HDR_OUT`. -/
theorem headerReadIsSevenReads : Obligations.HeaderReadIsSevenReads := by
  intro s hfree hw
  refine ⟨?_, fun f => ⟨_, exec_regRd32_outOffset hfree f, ?_⟩⟩
  · rw [exec_hdrRead hfree, afterHdrRead_of_hardware hw, hdrOutView_of_hardware hw]
    simp only [true_and]
    rfl
  · rw [State.finish_result, hdrOutView_of_hardware hw]

/-- Settles O28: the view of `HDR_OUT` is `HDR_IN`, which HDR.WRITE sets. -/
theorem mirrorReturnsTheHeader : Obligations.MirrorReturnsTheHeader := by
  intro h s hfree hm
  refine ⟨⟨_, exec_hdrRead hfree, ?_⟩, fun f => ⟨_, exec_regRd32_outOffset hfree f, ?_⟩, fun hopen =>
    ⟨_, _, exec_hdrWrite ⟨hfree, hopen⟩ h, exec_hdrRead hfree, ?_⟩⟩
  · rw [State.finish_result, hdrOutView_of_mirror hm]
  · rw [State.finish_result, hdrOutView_of_mirror hm]
  · rw [State.finish_result, hdrOutView_of_mirror (by exact hm), State.finish_hdrIn, State.setHeader_hdrIn]

/-- Settles O29: a push and a write at `WQ_ADDR` are the same access of the queue. -/
theorem pushAppendsToWriteQueue : Obligations.PushAppendsToWriteQueue := by
  intro b s hs
  refine ⟨(exec_regWr64_wqAddr s b).symm, fun hroom => ?_, fun d hdepth hfull => ?_⟩
  · rw [exec_wqPush hs, if_neg]
    intro hfull
    obtain ⟨d, hdepth, hle⟩ := wqFull_iff.1 hfull
    exact absurd (hroom d hdepth) (Nat.not_lt.2 hle)
  · rw [exec_wqPush hs, if_pos (wqFull_iff.2 ⟨d, hdepth, hfull⟩)]

/-- Settles O30: a pop and a read at `RQ_ADDR` are the same access of the queue. -/
theorem popTakesHeadOfReadQueue : Obligations.PopTakesHeadOfReadQueue := fun s hfree =>
  ⟨(exec_regRd64_rqAddr s).symm, fun _ _ hrq => exec_rqPop_of_cons hfree hrq,
    fun hrq => ⟨_, exec_rqPop_of_nil hfree hrq⟩⟩

/-- Settles O32: the write of 1 at `ENABLE_ADDR`, of either width, is the start. -/
theorem startWritesOneToEnable : Obligations.StartWritesOneToEnable := by
  intro s hc hs
  refine ⟨exec_enStart hs, ?_⟩
  split
  · next hw => rw [exec_regWr32_enableAddr hs hc hw, if_pos rfl]
  · next hw => rw [exec_regWr64_enableAddr hs hc hw, if_pos rfl]

/-- Settles O33: POLL.READ hands back the value it notes. -/
theorem pollReturnsThePollRegister : Obligations.PollReturnsThePollRegister := by
  intro s hfree hw
  refine ⟨fun hpoll => ?_, fun hpoll => ?_⟩
  · rw [exec_pollRead hfree, pollValue_rcount_of_hardware hw hpoll, noteCount_toNat_of_hardware hw]
    rfl
  · rw [exec_pollRead hfree, pollValue_hdrOut0_of_hardware hw hpoll, noteCount_toNat_of_hardware hw]
    rfl

end Sys2Proof.Machine

/-!
### The proofs of the family "transfer_session"

The TransferSession (spec/43_transfer_session.md). A step of a running session is the session's next access on its
block after the pipelines' turn; what that access is, state by state, is said once here. The run of a session under the
loopback mock is followed on the part of the state it turns on, `LoopRun`.
-/

namespace Sys2Proof.Machine

variable {s t u v : State} {σ : Session}

/-! #### The order of the states -/

/-- The poll register is one of the block at hand. -/
theorem pollValue_congr (h : t.toBlock = s.toBlock) : t.pollValue = s.pollValue := by
  simp only [State.pollValue, State.rcountView, State.hdrOutView, h]

/-- What one access leaves of a running session: the next state or the same one, what it was made with, and a count
that is still the old one unless it was read in the poll register. -/
structure Session.Advances (σ τ : Session) (poll : Nat) : Prop where
  follows : σ.state.follows τ.state
  block : τ.block = σ.block
  txHeader : τ.txHeader = σ.txHeader
  txBeats : τ.txBeats = σ.txBeats
  completes : τ.state = .completed → σ.count ≠ 0 ∧ τ.count = σ.count
  count : τ.count ≠ σ.count → τ.count = poll

/-- A running session is not in `Completed`, so each of its accesses takes it on in the order of R190. -/
theorem SessionEffect.advances (h : SessionEffect σ u v) (hc : σ.Consistent) (hrun : σ.ended = false) :
    ∃ τ, v.session = some τ ∧ σ.Advances τ u.pollValue := by
  cases h
  case completed hσ => simp [Session.Consistent, hσ, hrun] at hc
  case counted hσ _ _ => exact ⟨_, rfl, by simp [hσ, SessionState.follows], rfl, rfl, rfl, by simp [hσ], fun _ => rfl⟩
  case complete hσ hcount _ _ =>
    exact ⟨_, rfl, by simp [hσ, SessionState.follows], rfl, rfl, rfl, fun _ => ⟨hcount, rfl⟩, absurd rfl⟩
  case header hσ _ | push hσ _ _ _ | sent hσ _ | start hσ _ | poll hσ | zero hσ _ _ | timeout hσ _ _ | report hσ _ _ |
      pop hσ _ _ _ =>
    exact ⟨_, rfl, by simp [hσ, SessionState.follows], rfl, rfl, rfl, by simp [hσ], absurd rfl⟩

/-- Settles O42: the access is one of `SessionEffect`, made with the block of the session at hand. -/
theorem sessionStatesInOrder : Obligations.SessionStatesInOrder := by
  intro s t σ hs hσ hrun h
  obtain ⟨σ', hσ', -, h⟩ | ⟨hfree, -⟩ | ⟨hfree, -⟩ := step_cases h
  · obtain rfl : σ' = σ := Option.some.inj (hσ'.symm.trans hσ)
    obtain ⟨-, -, -, hsession⟩ := hs
    obtain ⟨u, v, hk, ha⟩ := onBlock_access h
    obtain ⟨τ, hτ, hadv⟩ := (sessionStep_effect hk).advances (hsession σ' hσ).1 hrun
    refine ⟨τ, ha.sideAfter.session.trans hτ, hadv.follows, hadv.block, hadv.txHeader, hadv.txBeats, hadv.completes,
      fun hne => ⟨u.toBlock, List.mem_of_find?_eq_some ha.foundBefore, ha.base_eq, ?_⟩⟩
    rw [hadv.count hne]
    exact pollValue_congr rfl
  all_goals simp [ended_of_hostFree hfree hσ] at hrun

/-! #### The block of a session or a call -/

/-- With a session running a step is its next access, on its block, after the pipelines' turn. -/
theorem step_of_session (hσ : s.session = some σ) (hrun : σ.ended = false) :
    step s = s.pipelineTurn.onBlock σ.block (sessionStep σ) := by
  have hfilter : s.session.filter (fun σ => !σ.ended) = some σ := by simp [hσ, hrun]
  simp only [step, State.pipelineTurn_session, hfilter]

/-- The turn moves each block where it stands, so blocks may change places before it or after it. -/
theorem pipelineTurn_swap (j : Nat) (s : State) : (s.swap j).pipelineTurn = s.pipelineTurn.swap j := by
  cases hj : s.others[j]? with
  | none => rw [swap_of_none hj, swap_of_none (by simp [hj])]
  | some b =>
    rw [swap_eq hj, swap_eq (s := s.pipelineTurn) (b := b.turn) (by simp [hj])]
    simp [State.pipelineTurn, List.map_set]

theorem setCalls_swap (j : Nat) (calls : List Call) (s : State) :
    (s.setCalls calls).swap j = (s.swap j).setCalls calls := by
  unfold State.swap State.setCalls
  cases s.others[j]? <;> rfl

/-- An access at the base of another block is that access with the other block at hand. -/
theorem onBlock_swap {j : Nat} {b : Block} {k : State → Answer} (hj : s.others[j]? = some b)
    (hne : s.cfg.hdrBase ≠ b.cfg.hdrBase) (hfirst : ∀ c ∈ s.others.take j, c.cfg.hdrBase ≠ b.cfg.hdrBase) :
    s.onBlock b.cfg.hdrBase k = onNext ((s.swap j).onBlock b.cfg.hdrBase k) fun t => .next (t.swap j) := by
  have hfind : s.others.findIdx? (fun c => c.cfg.hdrBase == b.cfg.hdrBase) = some j := by
    obtain ⟨hlt, rfl⟩ := List.getElem?_eq_some_iff.1 hj
    refine List.findIdx?_eq_some_iff_getElem.2 ⟨hlt, by simp, fun i hi => ?_⟩
    simpa using hfirst _ (List.mem_take_iff_getElem.2 ⟨i, by omega, rfl⟩)
  have hhand : (s.swap j).onBlock b.cfg.hdrBase k = k (s.swap j) := atBlock_here (by simp [swap_eq hj])
  rw [hhand]
  simp [State.onBlock, State.atBlock, hne, hfind]

/-- Settles O56: the session's access and the call are each made on the named block, and bringing it to hand before
the turn or after it is the same. -/
theorem stepOnAnotherBlock : Obligations.StepOnAnotherBlock := by
  intro s j b hj hne hfirst hwho
  have hjt : s.pipelineTurn.others[j]? = some b.turn := by simp [hj]
  have hnet : s.pipelineTurn.cfg.hdrBase ≠ b.turn.cfg.hdrBase := by simpa using hne
  have hfirstt : ∀ c ∈ s.pipelineTurn.others.take j, c.cfg.hdrBase ≠ b.turn.cfg.hdrBase := by
    simpa [← List.map_take] using hfirst
  have hbase : b.turn.cfg.hdrBase = b.cfg.hdrBase := by simp
  obtain ⟨σ, hσ, hrun, hblock⟩ | ⟨hfree, i, rest, hc⟩ := hwho
  · rw [step_of_session hσ hrun, step_of_session (s := s.swap j) (by simpa using hσ) hrun, pipelineTurn_swap, hblock,
      ← hbase, onBlock_swap hjt hnet hfirstt]
  · rw [step_of_call hfree hc,
      step_of_call (s := s.swap j) ((hostFree_congr (s.swap_session j)).trans hfree) ((s.swap_calls j).trans hc)]
    split
    · rw [pipelineTurn_swap, ← setCalls_swap, ← hbase,
        onBlock_swap (s := s.pipelineTurn.setCalls rest) hjt hnet hfirstt]
    · rfl

/-! #### The accesses of a session, state by state -/

/-- With a session of the block at hand running a step is the session's next access there. -/
theorem step_of_session_here (hσ : s.session = some σ) (hrun : σ.ended = false) (hblock : σ.block = s.cfg.hdrBase) :
    step s = sessionStep σ s.pipelineTurn :=
  (step_of_session hσ hrun).trans (atBlock_here (by simp [hblock]))

theorem sessionStep_idle (hσ : σ.state = .idle) :
    sessionStep σ s =
      s.beforeStart (.next ((s.setHeader σ.txHeader).setSession { σ with state := .headerSent })) := by
  simp only [sessionStep, hσ]

theorem sessionStep_push {b : Beat} {rest : List Beat} (hσ : σ.state = .headerSent) (hpush : σ.toPush = b :: rest)
    (hopen : s.inTransfer = false) :
    sessionStep σ s = if s.wqFull then .fault .writeQueueFull
      else .next ((s.enqueue b).setSession { σ with toPush := rest }) := by
  simp only [sessionStep, hσ, hpush, State.pushWq, beforeStart_of_open hopen]
  split <;> rfl

theorem sessionStep_sent (hσ : σ.state = .headerSent) (hpush : σ.toPush = []) :
    sessionStep σ s = .next (s.setSession { σ with state := .payloadSent }) := by
  simp only [sessionStep, hσ, hpush]

theorem sessionStep_start (hσ : σ.state = .payloadSent) (hopen : s.inTransfer = false) :
    sessionStep σ s = .next (s.started.setSession { σ with state := .enabled }) := by
  simp only [sessionStep, hσ, State.start, beforeStart_of_open hopen, onNext_next]

theorem sessionStep_enabled (hσ : σ.state = .enabled) :
    sessionStep σ s = .next (s.setSession { σ with state := .polling }) := by
  simp only [sessionStep, hσ]

section Polling

variable (hσ : σ.state = .polling) (hcount : σ.count = 0)
include hσ hcount

/-- A non-zero poll leaves the loop (R194). -/
theorem sessionStep_counted (hn : s.pollValue ≠ 0) :
    sessionStep σ s = .next
      ((s.noteCount s.pollValue).setSession { σ with polls := σ.polls + 1, count := s.pollValue }) := by
  simp [sessionStep, hσ, hcount, pollStep, hn]

/-- A zero goes round again below the poll limit (R194). -/
theorem sessionStep_zero (hn : s.pollValue = 0) (hlimit : s.pollLimitReached (σ.polls + 1) = false) :
    sessionStep σ s = .next (s.setSession { σ with polls := σ.polls + 1 }) := by
  simp [sessionStep, hσ, hcount, pollStep, hn, hlimit, State.noteCount]

/-- A zero at the poll limit ends the session (R200). -/
theorem sessionStep_timeout (hn : s.pollValue = 0) (hlimit : s.pollLimitReached (σ.polls + 1) = true) :
    sessionStep σ s = .next (s.reportTimeout { σ with polls := σ.polls + 1 }) := by
  simp [sessionStep, hσ, hcount, pollStep, hn, hlimit]

end Polling

section Receiving

variable (hσ : σ.state = .polling) (hcount : σ.count ≠ 0)
include hσ hcount

theorem sessionStep_report (hh : σ.readHeader = none) :
    sessionStep σ s =
      .next ((s.afterHdrRead .beatCount).setSession { σ with readHeader := some s.hdrOutView }) := by
  simp [sessionStep, hσ, hcount, receiveStep, hh]

theorem sessionStep_pop {h : Header} (hh : σ.readHeader = some h) (hlen : σ.readBeats.length < σ.count) :
    sessionStep σ s = .next (s.popRq.2.setSession { σ with readBeats := σ.readBeats ++ [s.popRq.1] }) := by
  simp [sessionStep, hσ, hcount, receiveStep, hh, hlen]

theorem sessionStep_complete {h : Header} (hh : σ.readHeader = some h) (hlen : σ.count ≤ σ.readBeats.length) :
    sessionStep σ s = .next (((s.afterUnframing σ.readBeats).setSession
      { σ with state := .completed, ended := true, rxHeader := some h, rxBeats := σ.readBeats }).finish
        (.transfer h (unframeBeats s.cfg.desOrder σ.readBeats))) := by
  simp [sessionStep, hσ, hcount, receiveStep, hh, Nat.not_lt.2 hlen]

end Receiving

theorem pollLimitReached_iff {n : Nat} : s.pollLimitReached n = true ↔ ∃ k, s.cfg.pollLimit = some k ∧ k ≤ n := by
  unfold State.pollLimitReached
  split <;> simp_all

theorem setHeader_setSession (h : Header) (σ : Session) :
    (s.setHeader h).setSession σ = { s with hdrIn := h, session := some σ } := rfl

theorem noteCount_of_ne_zero {n : Nat} (hn : n ≠ 0) :
    s.noteCount n = { s.transferOver with pipe := s.pipeAfterTransfer } := if_neg hn

theorem popRq_of_cons {b : Beat} {rest : List Beat} (hrq : s.rq = b :: rest) :
    s.popRq = (b, { s with rq := rest }) := by
  simp only [State.popRq, hrq]

theorem popRq_of_nil (hrq : s.rq = []) :
    s.popRq = (Config.emptyPop s.draws s.pipe, { s with draws := s.draws + 1 }) := by
  simp only [State.popRq, hrq]

/-- Before the mock of P5 the poll register reads 0, wherever it is. -/
theorem pollValue_of_silent (h : s.cfg.transport = .silent) : s.pollValue = 0 := by
  unfold State.pollValue
  split
  · simp [State.rcountView, h]
  · next hpoll => simp [State.hdrOutView, h, hpoll]

/-! #### The transitions -/

section SessionRun

variable (h : Header) {p : List Byte} (hfree : s.hostFree = true) (h8 : s.cfg.bytesPerBeat = 8)
include hfree h8

theorem exec_sessionRun_of_mod (hp : p.length % 8 = 0) :
    exec (.sessionRun h p) s = .next (((s.afterFraming (frameBeats s.cfg.serOrder p)).setSession
      (Session.create s.cfg.hdrBase h (frameBeats s.cfg.serOrder p))).finish .pending) := by
  rw [exec, execSessionRun, whenHostFree_of_free hfree, withBeatOf8_of_eq h8, if_pos hp]

theorem exec_sessionRun_of_mod_ne (hp : p.length % 8 ≠ 0) :
    exec (.sessionRun h p) s = .next ((s.setSession { Session.create s.cfg.hdrBase h [] with ended := true }).finish
      (.shapeError p.length)) := by
  rw [exec, execSessionRun, whenHostFree_of_free hfree, withBeatOf8_of_eq h8, if_neg hp]

end SessionRun

/-- Settles O36: SESSION.RUN frames the payload as TOBEATS does, or makes an ended session. -/
theorem sessionStartsIdleOrReportsShape : Obligations.SessionStartsIdleOrReportsShape := fun h p s hfree h8 =>
  ⟨fun hp => ⟨frameBeats s.cfg.serOrder p, _, exec_toBeats_of_mod h8 hp, rfl, exec_sessionRun_of_mod h hfree h8 hp⟩,
    exec_sessionRun_of_mod_ne h hfree h8⟩

/-- Settles O37: the header transition stands behind the guard of the start. -/
theorem sessionSendsHeader : Obligations.SessionSendsHeader := by
  intro s σ hσ hrun hidle hblock
  rw [step_of_session_here hσ hrun hblock, sessionStep_idle hidle]
  refine ⟨fun hopen => ?_, fun hbusy => ?_⟩
  · rw [beforeStart_of_open (by simpa using hopen), setHeader_setSession]
  · simp [State.beforeStart, hbusy]

/-- Settles O38: a push a step while beats are left, then the transition. -/
theorem sessionStreamsPayload : Obligations.SessionStreamsPayload := by
  intro s σ hσ hrun hsent hblock hopen
  rw [step_of_session_here hσ hrun hblock]
  exact ⟨fun b rest hpush => sessionStep_push hsent hpush (by simpa using hopen), sessionStep_sent hsent⟩

/-- Settles O39: the start, then a transition without an access. -/
theorem sessionEnablesThenPolls : Obligations.SessionEnablesThenPolls := by
  intro s σ hσ hrun hblock
  rw [step_of_session_here hσ hrun hblock]
  exact ⟨fun hsent hopen => sessionStep_start hsent (by simpa using hopen), sessionStep_enabled⟩

/-- Settles O40: the three ways a poll can end. -/
theorem sessionPollsUntilNonZeroOrLimit : Obligations.SessionPollsUntilNonZeroOrLimit := by
  intro s σ hσ hrun hpoll hcount hblock t
  rw [step_of_session_here hσ hrun hblock]
  have hcfg : t.cfg = s.cfg := s.pipelineTurn_cfg
  refine ⟨fun hn => ?_, fun hn hbelow => ?_, fun hn k hk hle => ?_⟩
  · rw [sessionStep_counted hpoll hcount hn, noteCount_of_ne_zero hn]
    rfl
  · refine sessionStep_zero hpoll hcount hn (Bool.eq_false_iff.2 fun hlimit => ?_)
    obtain ⟨k, hk, hle⟩ := pollLimitReached_iff.1 hlimit
    exact absurd (hbelow k (hcfg ▸ hk)) (Nat.not_lt.2 hle)
  · exact sessionStep_timeout hpoll hcount hn (pollLimitReached_iff.2 ⟨k, hcfg ▸ hk, hle⟩)

/-- Settles O41: the header, a pop while beats are missing, then FROMBEATS and the last transition. -/
theorem sessionReceivesHeaderThenBeats : Obligations.SessionReceivesHeaderThenBeats := by
  intro s σ hσ hrun hpoll hcount hblock hw h8 t
  rw [step_of_session_here hσ hrun hblock]
  have hcfg : t.cfg = s.cfg := s.pipelineTurn_cfg
  have hwt : t.cfg.transport = .hardware := hcfg ▸ hw
  refine ⟨fun hh => ?_, fun h b rest hh hlen hrq => ?_, fun h hh hlen hrq => ⟨Config.emptyPop t.draws t.pipe, ?_⟩,
    fun h hh hlen => ⟨_, _, exec_fromBeats (hcfg ▸ h8) _, rfl, ?_⟩⟩
  · rw [sessionStep_report hpoll hcount hh, afterHdrRead_of_hardware hwt, hdrOutView_of_hardware hwt, hcfg]
    simp only [true_and]
    rfl
  · rw [sessionStep_pop hpoll hcount hh hlen, popRq_of_cons hrq]
    rfl
  · rw [sessionStep_pop hpoll hcount hh hlen, popRq_of_nil hrq]
    rfl
  · rw [sessionStep_complete hpoll hcount hh hlen]
    rfl

/-! #### A poll without an answer -/

theorem run_succ_of_next {M : Host.Core} {k : Nat} {x y : M.State} (h : M.step x = .next y) :
    M.run (k + 1) x = M.run k y := by
  rw [Host.Core.run, h]

/-- Before the mock of P5 the turn leaves the block as it is. -/
theorem pipelineTurn_toBlock_of_silent (h : s.cfg.transport = .silent) : s.pipelineTurn.toBlock = s.toBlock := by
  simp only [State.pipelineTurn, Block.turn, h]

/-- Before the mock of P5 a session one poll short of its limit, or more, polls on until it is reached. -/
theorem run_silent_until_timeout (n : Nat) (hw : s.cfg.transport = .silent)
    (hlimit : s.cfg.pollLimit = some (σ.polls + (n + 1))) (hσ : s.session = some σ) (hrun : σ.ended = false)
    (hpoll : σ.state = .polling) (hcount : σ.count = 0) (hblock : σ.block = s.cfg.hdrBase) :
    ∃ t, Host.Core.run core (n + 1) s = .next t ∧ t.toBlock = { s.toBlock with inTransfer := false } ∧
      t.session = some { σ with polls := σ.polls + (n + 1), ended := true } ∧
      t.result = .timeout (σ.polls + (n + 1)) ∧ t.calls = s.calls := by
  have hn : s.pipelineTurn.pollValue = 0 := pollValue_of_silent (by simpa using hw)
  induction n generalizing s σ with
  | zero =>
    have hreached : s.pipelineTurn.pollLimitReached (σ.polls + 1) = true :=
      pollLimitReached_iff.2 ⟨σ.polls + 1, by simpa using hlimit, le_rfl⟩
    have hstep : core.step s = _ :=
      (step_of_session_here hσ hrun hblock).trans (sessionStep_timeout hpoll hcount hn hreached)
    refine ⟨_, run_succ_of_next hstep, ?_, rfl, rfl, rfl⟩
    change { s.pipelineTurn.toBlock with inTransfer := false } = _
    rw [pipelineTurn_toBlock_of_silent hw]
  | succ n ih =>
    have hbelow : s.pipelineTurn.pollLimitReached (σ.polls + 1) = false := by
      simp [State.pollLimitReached, hlimit]
    have hstep : core.step s = _ :=
      (step_of_session_here hσ hrun hblock).trans (sessionStep_zero hpoll hcount hn hbelow)
    have hpolls : σ.polls + 1 + (n + 1) = σ.polls + (n + 1 + 1) := by omega
    have hnext := ih (s := s.pipelineTurn.setSession { σ with polls := σ.polls + 1 })
      (σ := { σ with polls := σ.polls + 1 }) (by simpa using hw) (by simpa [hpolls] using hlimit) rfl hrun hpoll hcount
      (by simpa using hblock) (pollValue_of_silent (by simpa using hw))
    rw [hpolls, show (s.pipelineTurn.setSession _).toBlock = s.toBlock from pipelineTurn_toBlock_of_silent hw] at hnext
    rw [run_succ_of_next hstep]
    exact hnext

/-- Settles O45: `run_silent_until_timeout` from the first poll on. -/
theorem silentPipelineTimesOut : Obligations.SilentPipelineTimesOut := by
  intro k s σ hw hlimit hk hσ hrun hpoll hcount hpolls hblock
  obtain ⟨n, rfl⟩ := Nat.exists_eq_add_one.2 hk
  simpa [hpolls] using run_silent_until_timeout n hw (by simpa [hpolls] using hlimit) hσ hrun hpoll hcount hblock

/-! #### VALIDATE -/

theorem mem_mismatchIndices {rx ex : List Byte} {i : Nat} : i ∈ mismatchIndices rx ex ↔
    i < max rx.length ex.length ∧ (rx.length ≤ i ∨ ex.length ≤ i ∨ rx[i]? ≠ ex[i]?) := by
  simp [mismatchIndices, or_assoc]

/-- Payloads without a mismatch agree at every position, so they are equal. -/
theorem mismatchIndices_eq_nil_iff {rx ex : List Byte} : mismatchIndices rx ex = [] ↔ rx = ex := by
  refine ⟨fun h => List.ext_getElem? fun i => by_contra fun hne => ?_, ?_⟩
  · have hi : i ∈ mismatchIndices rx ex := by
      refine mem_mismatchIndices.2 ⟨by_contra fun hbeyond => hne ?_, .inr (.inr hne)⟩
      rw [List.getElem?_eq_none (by omega), List.getElem?_eq_none (by omega)]
    simp [h] at hi
  · rintro rfl
    refine List.eq_nil_iff_forall_not_mem.2 fun i hi => ?_
    obtain ⟨hlt, hdiff⟩ := mem_mismatchIndices.1 hi
    simp only [max_self, ne_eq, not_true_eq_false, or_false, or_self] at hlt hdiff
    omega

/-- Settles O46: the list is a sublist of the ascending range. -/
theorem validateListsMismatches : Obligations.ValidateListsMismatches := by
  intro rx ex s
  have hpass : (mismatchIndices rx ex).length = 0 ↔ rx = ex :=
    List.length_eq_zero_iff.trans mismatchIndices_eq_nil_iff
  refine ⟨_, mismatchIndices rx ex, rfl, List.pairwise_lt_range.filter _, fun i => mem_mismatchIndices,
    decide_eq_true_iff, decide_eq_true_iff.trans hpass⟩

/-! #### A session under the loopback mock -/

/-- Runs one after another are one run. -/
theorem run_add_of_next {M : Host.Core} {x y : M.State} {k : Nat} (h : M.run k x = .next y) (n : Nat) :
    M.run (k + n) x = M.run n y := by
  induction k generalizing x with
  | zero => cases h; rw [Nat.zero_add]
  | succ k ih =>
    rw [Nat.add_right_comm]
    rw [Host.Core.run] at h ⊢
    split at h
    · exact ih h
    · cases h
    · cases h

/-- The mock's turn brings every beat back, counts it, and shows the count while it runs (D32). -/
theorem pipelineTurn_of_loopback (hw : s.cfg.transport = .loopback) :
    s.pipelineTurn.wq = [] ∧ s.pipelineTurn.rq = s.rq ++ s.wq ∧ s.pipelineTurn.pipe = s.pipe + s.wq.length ∧
      s.pipelineTurn.rcount =
        if s.processing then fitWidth s.cfg.ctrlWidth (BitVec.ofNat 64 (s.pipe + s.wq.length)) else 0 := by
  have hturn : s.pipelineTurn.toBlock = s.toBlock.loopBack := by simp only [State.pipelineTurn, Block.turn, hw]
  rw [hturn]
  exact ⟨rfl, rfl, rfl, rfl⟩

/-- The run of a session under the loopback mock, as far as it matters for its outcome: of the queues only the beats in
flight, pushed and not popped, whichever queue holds them. -/
structure LoopRun where
  cfg : Config.Params
  calls : List Call
  session : Session
  hdrIn : Header
  inFlight : List Beat
  /-- The beats pushed since the last transfer ended. -/
  pushed : Nat
  /-- The transfer is under way. -/
  started : Bool

/-- The state is at this point of the run of a session of the block at hand, its mock the loopback with queues without
bound. -/
structure LoopRun.At (w : LoopRun) (s : State) : Prop where
  transport : w.cfg.transport = .loopback
  pollAt : w.cfg.pollAt = .rcount
  queueDepth : w.cfg.queueDepth = none
  block : w.session.block = w.cfg.hdrBase
  running : w.session.ended = false
  cfg : s.cfg = w.cfg
  calls : s.calls = w.calls
  session : s.session = some w.session
  hdrIn : s.hdrIn = w.hdrIn
  inFlight : s.rq ++ s.wq = w.inFlight
  pushed : s.pipe + s.wq.length = w.pushed
  processing : s.processing = w.started
  inTransfer : s.inTransfer = w.started

/-- The same after the mock's turn, when every beat in flight has come back and is counted. -/
structure LoopRun.Turned (w : LoopRun) (s : State) : Prop extends w.At s where
  wq : s.wq = []
  rcount : s.rcount = if w.started then fitWidth w.cfg.ctrlWidth (BitVec.ofNat 64 w.pushed) else 0

/-- A step from a point of the run is the mock's turn and the session's access. -/
theorem LoopRun.At.step_eq {w : LoopRun} (h : w.At s) :
    w.Turned s.pipelineTurn ∧ core.step s = sessionStep w.session s.pipelineTurn := by
  obtain ⟨hwq, hrq, hpipe, hrcount⟩ := pipelineTurn_of_loopback (s := s) (h.cfg ▸ h.transport)
  refine ⟨{ h with
    cfg := by simpa using h.cfg
    hdrIn := by simpa using h.hdrIn
    processing := by simpa using h.processing
    inTransfer := by simpa using h.inTransfer
    inFlight := by rw [hwq, hrq, List.append_nil, h.inFlight]
    pushed := by rw [hwq, hpipe, List.length_nil, Nat.add_zero, h.pushed]
    wq := hwq
    rcount := by rw [hrcount, h.processing, h.pushed, h.cfg] },
    step_of_session_here h.session h.running (h.block.trans (by rw [h.cfg]))⟩

namespace LoopRun

variable {w w₁ w₂ : LoopRun} {k n : Nat}

theorem Turned.rq (h : w.Turned s) : s.rq = w.inFlight := by
  rw [← h.inFlight, h.wq, List.append_nil]

theorem Turned.pipe (h : w.Turned s) : s.pipe = w.pushed := by
  rw [← h.pushed, h.wq, List.length_nil, Nat.add_zero]

/-- From the first point of the run `k` steps lead to the second. -/
def Goes (k : Nat) (w w₁ : LoopRun) : Prop := ∀ s, w.At s → ∃ t, Host.Core.run core k s = .next t ∧ w₁.At t

theorem Goes.trans (h₁ : Goes k w w₁) (h₂ : Goes n w₁ w₂) : Goes (k + n) w w₂ := by
  intro s hs
  obtain ⟨t, ht, hat⟩ := h₁ s hs
  obtain ⟨u, hu, hau⟩ := h₂ t hat
  exact ⟨u, (run_add_of_next ht n).trans hu, hau⟩

theorem goes_one (h : ∀ u, w.Turned u → ∃ t, sessionStep w.session u = .next t ∧ w₁.At t) : Goes 1 w w₁ := by
  intro s hs
  obtain ⟨hturned, hstep⟩ := hs.step_eq
  obtain ⟨t, ht, hat⟩ := h _ hturned
  exact ⟨t, run_succ_of_next (hstep.trans ht), hat⟩

theorem goes_header (hσ : w.session.state = .idle) (hopen : w.started = false) :
    Goes 1 w { w with hdrIn := w.session.txHeader, session := { w.session with state := .headerSent } } :=
  goes_one fun _ h => ⟨_, (sessionStep_idle hσ).trans (beforeStart_of_open (h.inTransfer.trans hopen)),
    { h with hdrIn := rfl, session := rfl }⟩

theorem goes_push {b : Beat} {rest : List Beat} (hσ : w.session.state = .headerSent)
    (hpush : w.session.toPush = b :: rest) (hopen : w.started = false) :
    Goes 1 w { w with
      inFlight := w.inFlight ++ [b], pushed := w.pushed + 1, session := { w.session with toPush := rest } } :=
  goes_one fun u h => by
    have hroom : u.wqFull = false := wqFull_of_unbounded (h.cfg ▸ h.queueDepth)
    refine ⟨_, (sessionStep_push hσ hpush (h.inTransfer.trans hopen)).trans (if_neg (by simp [hroom])),
      { h with session := rfl, inFlight := ?_, pushed := ?_ }⟩
    · simp [← h.inFlight]
    · simp [← h.pushed, Nat.add_assoc]

theorem goes_pushes {bs : List Beat} (hσ : w.session.state = .headerSent) (hpush : w.session.toPush = bs)
    (hopen : w.started = false) :
    Goes bs.length w { w with
      inFlight := w.inFlight ++ bs, pushed := bs.length + w.pushed, session := { w.session with toPush := [] } } := by
  induction bs generalizing w with
  | nil =>
    exact fun s hs => ⟨s, rfl, { hs with
      session := by rw [hs.session, ← hpush]
      inFlight := by rw [hs.inFlight, List.append_nil]
      pushed := by rw [hs.pushed, List.length_nil, Nat.zero_add] }⟩
  | cons b rest ih =>
    simpa [Nat.add_assoc, Nat.add_comm 1] using (goes_push hσ hpush hopen).trans (ih hσ rfl hopen)

theorem goes_sent (hσ : w.session.state = .headerSent) (hpush : w.session.toPush = []) :
    Goes 1 w { w with session := { w.session with state := .payloadSent } } :=
  goes_one fun _ h => ⟨_, sessionStep_sent hσ hpush, { h with session := rfl }⟩

theorem goes_start (hσ : w.session.state = .payloadSent) (hopen : w.started = false) :
    Goes 1 w { w with started := true, session := { w.session with state := .enabled } } :=
  goes_one fun _ h => ⟨_, sessionStep_start hσ (h.inTransfer.trans hopen),
    { h with session := rfl, processing := rfl, inTransfer := rfl }⟩

theorem goes_polling (hσ : w.session.state = .enabled) :
    Goes 1 w { w with session := { w.session with state := .polling } } :=
  goes_one fun _ h => ⟨_, sessionStep_enabled hσ, { h with session := rfl }⟩

/-- A count below `2 ^ 32` is read as it is, whatever `CTRL_WIDTH`. -/
theorem Turned.pollValue (h : w.Turned s) (hstarted : w.started = true) (hlt : w.pushed < 2 ^ 32) :
    s.pollValue = w.pushed := by
  have hs : s.cfg.transport = .loopback ∧ s.cfg.pollAt = .rcount := h.cfg ▸ ⟨h.transport, h.pollAt⟩
  simp only [State.pollValue, State.rcountView, hs, h.rcount, hstarted, if_true]
  cases w.cfg.ctrlWidth <;> simp [fitWidth] <;> omega

/-- The first poll after the start reads the count and ends the transfer. -/
theorem goes_counted (hσ : w.session.state = .polling) (hcount : w.session.count = 0) (hstarted : w.started = true)
    (hpos : 0 < w.pushed) (hlt : w.pushed < 2 ^ 32) :
    Goes 1 w { w with
      started := false, pushed := 0
      session := { w.session with polls := w.session.polls + 1, count := w.pushed } } :=
  goes_one fun u h => by
    have hn : u.pollValue = w.pushed := h.pollValue hstarted hlt
    have hpipe : u.pipeAfterTransfer = 0 := by
      have hs : u.cfg.transport = .loopback := h.cfg ▸ h.transport
      simp only [Block.pipeAfterTransfer, hs]
    refine ⟨_, sessionStep_counted hσ hcount (by omega), ?_⟩
    rw [hn, noteCount_of_ne_zero (by omega)]
    exact { h with
      session := rfl, processing := rfl, inTransfer := rfl
      pushed := by simp [State.transferOver, hpipe, h.wq] }

/-- The mock mirrors the header, and reading it ends nothing (R180). -/
theorem goes_report (hσ : w.session.state = .polling) (hcount : w.session.count ≠ 0)
    (hh : w.session.readHeader = none) :
    Goes 1 w { w with session := { w.session with readHeader := some w.hdrIn } } :=
  goes_one fun u h => by
    have hs : u.cfg.transport = .loopback ∧ u.cfg.pollAt = .rcount := h.cfg ▸ ⟨h.transport, h.pollAt⟩
    have hread : u.afterHdrRead .beatCount = u := by simp only [State.afterHdrRead, hs]
    have hview : u.hdrOutView = w.hdrIn := by simp only [State.hdrOutView, hs, h.hdrIn]
    refine ⟨_, sessionStep_report hσ hcount hh, ?_⟩
    rw [hread, hview]
    exact { h with session := rfl }

theorem goes_pop {hd : Header} {b : Beat} {rest : List Beat} (hσ : w.session.state = .polling)
    (hcount : w.session.count ≠ 0) (hh : w.session.readHeader = some hd)
    (hlen : w.session.readBeats.length < w.session.count) (hflight : w.inFlight = b :: rest) :
    Goes 1 w { w with
      inFlight := rest, session := { w.session with readBeats := w.session.readBeats ++ [b] } } :=
  goes_one fun u h => by
    refine ⟨_, sessionStep_pop hσ hcount hh hlen, ?_⟩
    rw [popRq_of_cons (h.rq.trans hflight)]
    exact { h with session := rfl, inFlight := by simp [h.wq] }

theorem goes_pops {hd : Header} {bs : List Beat} (hσ : w.session.state = .polling) (hcount : w.session.count ≠ 0)
    (hh : w.session.readHeader = some hd) (hflight : w.inFlight = bs)
    (hlen : w.session.readBeats.length + bs.length = w.session.count) :
    Goes bs.length w { w with
      inFlight := [], session := { w.session with readBeats := w.session.readBeats ++ bs } } := by
  induction bs generalizing w with
  | nil =>
    exact fun s hs => ⟨s, rfl, { hs with
      session := by rw [hs.session, List.append_nil]
      inFlight := by rw [hs.inFlight, hflight] }⟩
  | cons b rest ih =>
    rw [List.length_cons] at hlen
    have hpop := goes_pop hσ hcount hh (by omega) hflight
    have hrest := ih (w := { w with
      inFlight := rest, session := { w.session with readBeats := w.session.readBeats ++ [b] } })
      hσ hcount hh rfl (by simp only [List.length_append, List.length_singleton]; omega)
    simpa [Nat.add_comm 1] using hpop.trans hrest

/-- With every beat back the session ends, and the block is as a session wants to find it. -/
theorem At.complete {hd : Header} (h : w.At s) (hσ : w.session.state = .polling) (hcount : w.session.count ≠ 0)
    (hh : w.session.readHeader = some hd) (hlen : w.session.count ≤ w.session.readBeats.length)
    (hflight : w.inFlight = []) (hpushed : w.pushed = 0) (hstopped : w.started = false) :
    ∃ t, Host.Core.run core 1 s = .next t ∧ t.session = some { w.session with
        state := .completed, ended := true, rxHeader := some hd, rxBeats := w.session.readBeats } ∧
      t.result = .transfer hd (unframeBeats w.cfg.desOrder w.session.readBeats) ∧ t.hdrIn = w.hdrIn ∧
      t.calls = w.calls ∧ CleanEntry t ∧ t.pipe = 0 ∧ HostMayAccess t := by
  obtain ⟨hu, hstep⟩ := h.step_eq
  have hs : s.cfg.transport = .loopback ∧ s.cfg.pollAt = .rcount := h.cfg ▸ ⟨h.transport, h.pollAt⟩
  refine ⟨_, run_succ_of_next (hstep.trans (sessionStep_complete hσ hcount hh hlen)), rfl, ?_, ?_, ?_,
    ⟨?_, ?_, ?_, ?_⟩, ?_, rfl, ?_⟩
  · rw [State.finish_result, hu.cfg]
  · simpa using hu.hdrIn
  · simpa using hu.calls
  · simpa using hu.wq
  · simpa using hu.rq.trans hflight
  · simp [State.pollValue, State.rcountView, hs, hu.rcount, hstopped]
  · simpa using hu.processing.trans hstopped
  · simpa using hu.pipe.trans hpushed
  · simpa using hu.inTransfer.trans hstopped

section Waypoints

variable (cfg : Config.Params) (calls : List Call) (hdrIn hd : Header) (bs : List Beat)

/-- The session stands in `Idle`. -/
def begun : LoopRun := ⟨cfg, calls, Session.create cfg.hdrBase hd bs, hdrIn, [], 0, false⟩

/-- The session polls, every beat on its way. -/
def waiting : LoopRun :=
  ⟨cfg, calls, { Session.create cfg.hdrBase hd bs with state := .polling, toPush := [] }, hd, bs, bs.length, true⟩

/-- The session has everything back that it sent, but for the last transition. -/
def returned : LoopRun :=
  ⟨cfg, calls, { Session.create cfg.hdrBase hd bs with
    state := .polling, toPush := [], polls := 1, count := bs.length, readHeader := some hd, readBeats := bs },
    hd, [], 0, false⟩

/-- The header, the pushes and the start (R191 to R193). -/
theorem begun_goes_waiting :
    Goes (1 + bs.length + 1 + 1 + 1) (begun cfg calls hdrIn hd bs) (waiting cfg calls hd bs) :=
  ((((goes_header rfl rfl).trans (goes_pushes (bs := bs) rfl rfl rfl)).trans (goes_sent rfl rfl)).trans
    (goes_start rfl rfl)).trans (goes_polling rfl)

/-- One poll, the header report and the pops (R194, R195). -/
theorem waiting_goes_returned (hpos : 0 < bs.length) (hlt : bs.length < 2 ^ 32) :
    Goes (1 + 1 + bs.length) (waiting cfg calls hd bs) (returned cfg calls hd bs) :=
  ((goes_counted rfl rfl rfl hpos hlt).trans (goes_report rfl hpos.ne' rfl)).trans
    (goes_pops (bs := bs) rfl hpos.ne' rfl rfl (Nat.zero_add _))

end Waypoints

end LoopRun

/-- SESSION.RUN on a clean block makes the first step: the session stands in `Idle` (R190). -/
theorem run_sessionRun_begun {h : Header} {p : List Byte} {rest : List Call} (hw : s.cfg.transport = .loopback)
    (hpoll : s.cfg.pollAt = .rcount) (h8 : s.cfg.bytesPerBeat = 8) (hdepth : s.cfg.queueDepth = none)
    (hclean : CleanEntry s) (hpipe : s.pipe = 0) (hs : HostMayAccess s)
    (hcalls : s.calls = ⟨s.cfg.hdrBase, .sessionRun h p⟩ :: rest) (hp : p.length % 8 = 0) :
    ∃ t, Host.Core.run core 1 s = .next t ∧
      (LoopRun.begun s.cfg rest s.hdrIn h (frameBeats s.cfg.serOrder p)).At t := by
  obtain ⟨hwq, hrq, -, hstopped⟩ := hclean
  obtain ⟨hfree, hopen⟩ := hs
  obtain ⟨hwqt, hrqt, hpipet, -⟩ := pipelineTurn_of_loopback hw
  obtain ⟨-, hcall, -⟩ := stepInvokesTheNextCall s hfree
  have hstep : core.step s = _ := (hcall _ rest hcalls rfl).trans
    (exec_sessionRun_of_mod (s := s.pipelineTurn.setCalls rest) h hfree (by simpa using h8) hp)
  exact ⟨_, run_succ_of_next hstep, {
    transport := hw
    pollAt := hpoll
    queueDepth := hdepth
    block := rfl
    running := rfl
    cfg := by simp [LoopRun.begun]
    calls := by simp [LoopRun.begun]
    session := by simp [LoopRun.begun]
    hdrIn := by simp [LoopRun.begun]
    inFlight := by simp [LoopRun.begun, hrqt, hwqt, hrq, hwq]
    pushed := by simp [LoopRun.begun, hpipet, hwqt, hpipe, hwq]
    processing := by simpa [LoopRun.begun] using hstopped
    inTransfer := by simpa [LoopRun.begun] using hopen }⟩

/-- Settles O47: SESSION.RUN, the accesses of the run, and the last transition; the beats that come back are those sent,
and one byte order unframes them to the payload. -/
theorem loopbackSessionReturnsItsPayload : Obligations.LoopbackSessionReturnsItsPayload := by
  intro s h p rest hw hpoll h8 hdepth horder hclean hpipe hs hcalls hp hpos hlt
  have hlen : (frameBeats s.cfg.serOrder p).length = p.length / 8 := by
    have hbytes := length_unframeBeats s.cfg.serOrder (frameBeats s.cfg.serOrder p)
    rw [unframeBeats_frameBeats _ hp] at hbytes
    omega
  obtain ⟨t, ht, hat⟩ := run_sessionRun_begun hw hpoll h8 hdepth hclean hpipe hs hcalls hp
  obtain ⟨u, hu, hau⟩ := ((LoopRun.begun_goes_waiting s.cfg rest s.hdrIn h _).trans
    (LoopRun.waiting_goes_returned s.cfg rest h _ (by omega) (by omega))) t hat
  obtain ⟨v, hv, hsession, hresult, hhdr, hcallsv, hcleanv, hpipev, hfreev⟩ :=
    hau.complete rfl (by simp only [LoopRun.returned]; omega) rfl le_rfl rfl rfl rfl
  refine ⟨v, _, ?_, hsession, rfl, rfl, rfl, rfl, ?_, hhdr, hcallsv, hcleanv, hpipev, hfreev⟩
  · rw [← hv, ← run_add_of_next hu, ← run_add_of_next ht, hlen]
    congr 1
    omega
  · rw [hresult]
    simp only [LoopRun.returned, ← horder, unframeBeats_frameBeats _ hp]

end Sys2Proof.Machine

/-!
### The proofs of the family "exceptions"

Refusals, the register space of a platform with several blocks, and the concurrency of the pipeline
(spec/60_exceptions.md). An access is made on the block whose register the address means; on a platform whose blocks
share no address this is the block that has the address, wherever it stands.
-/

namespace Sys2Proof.Machine

variable {s : State} {b c : Block} {cfg : Config.Params} {i : Instr} {addr j : Nat}

/-! #### The addresses of a platform -/

/-- At an address the block does not have, none of its registers is meant. -/
theorem targets_eq_none_of_not_mem (h : addr ∉ cfg.addresses) (w : Config.Width) :
    writeTarget cfg w addr = none ∧ readTarget cfg w addr = none := by
  simp only [Config.Params.addresses, List.mem_append, List.mem_map, List.mem_cons, List.not_mem_nil, or_false,
    not_or, not_exists, not_and] at h
  obtain ⟨⟨⟨-, hwq, -, hrq, hrcount, henable⟩, hin⟩, hout⟩ := h
  cases w with
  | w32 =>
    exact ⟨writeTarget_w32_eq_none (fun f => Ne.symm (hin f (HField.mem_all f))) fun hc => henable hc.1,
      readTarget_w32_eq_none (fun f => Ne.symm (hout f (HField.mem_all f))) fun hc => hrcount hc.1⟩
  | w64 =>
    exact ⟨writeTarget_w64_eq_none hwq fun hc => henable hc.1, readTarget_w64_eq_none hrq fun hc => hrcount hc.1⟩

/-- Two blocks of a valid platform that have a common address stand in one place (R62, R220). -/
theorem place_eq_of_common_address {k : Nat} (h : PlatformValid s) (hj : s.blocks[j]? = some b)
    (hk : s.blocks[k]? = some c) (hb : addr ∈ b.cfg.addresses) (hc : addr ∈ c.cfg.addresses) : j = k := by
  obtain ⟨-, hdisjoint⟩ := List.nodup_flatMap.1 h.2
  rw [List.pairwise_iff_getElem] at hdisjoint
  obtain ⟨hjlt, rfl⟩ := List.getElem?_eq_some_iff.1 hj
  obtain ⟨hklt, rfl⟩ := List.getElem?_eq_some_iff.1 hk
  obtain hlt | heq | hlt := lt_trichotomy j k
  · exact (hdisjoint j k hjlt hklt hlt hb hc).elim
  · exact heq
  · exact (hdisjoint k j hklt hjlt hlt hc hb).elim

/-- Where one other block is the only one that can satisfy `p`, the access is that access with it at hand. -/
theorem atBlock_swap {p : Config.Params → Bool} {k : State → Answer} (hj : s.others[j]? = some b)
    (hhand : p s.cfg = false) (hrest : ∀ n c, s.others[n]? = some c → n ≠ j → p c.cfg = false) :
    s.atBlock p k = onNext ((s.swap j).atBlock p k) fun t => .next (t.swap j) := by
  obtain ⟨hlt, hbj⟩ := List.getElem?_eq_some_iff.1 hj
  cases hp : p b.cfg with
  | true =>
    have hfind : s.others.findIdx? (fun c => p c.cfg) = some j :=
      List.findIdx?_eq_some_iff_getElem.2 ⟨hlt, by rw [hbj, hp], fun n hn => by
        simpa using hrest n _ (List.getElem?_eq_getElem (hn.trans hlt)) hn.ne⟩
    rw [atBlock_here (s := s.swap j) (by simpa [swap_eq hj] using hp)]
    simp [State.atBlock, hhand, hfind]
  | false =>
    have hnone : ∀ c ∈ s.others, p c.cfg = false := fun c hc => by
      obtain ⟨n, hn⟩ := List.mem_iff_getElem?.1 hc
      by_cases hnj : n = j
      · obtain rfl : b = c := Option.some.inj (hj.symm.trans (hnj ▸ hn))
        exact hp
      · exact hrest n c hn hnj
    have hswapped : (s.swap j).atBlock p k = .refused .unmappedAccess := by
      rw [swap_eq hj]
      refine atBlock_nowhere hp fun c hc => ?_
      obtain hc | rfl := List.mem_or_eq_of_mem_set hc
      · exact hnone c hc
      · exact hhand
    rw [atBlock_nowhere hhand hnone, hswapped, onNext_refused]

/-- A register access is made, outside a session, on the first block one of whose registers the address means; that
block has the address. -/
theorem exec_eq_atBlock {v : Word32} {d : Word64}
    (hi : i ∈ [Instr.regWr32 addr v, .regWr64 addr d, .regRd32 addr, .regRd64 addr]) :
    ∃ (p : Config.Params → Bool) (k : State → Answer), (∀ cfg, addr ∉ cfg.addresses → p cfg = false) ∧
      ∀ s, exec i s = s.whenHostFree (s.atBlock p k) := by
  simp only [List.mem_cons, List.not_mem_nil, or_false] at hi
  obtain rfl | rfl | rfl | rfl := hi
  · exact ⟨_, _, fun cfg h => by simp [targets_eq_none_of_not_mem h], fun _ => rfl⟩
  · exact ⟨_, _, fun cfg h => by simp [targets_eq_none_of_not_mem h], fun _ => rfl⟩
  · exact ⟨_, _, fun cfg h => by simp [targets_eq_none_of_not_mem h], fun _ => rfl⟩
  · exact ⟨_, _, fun cfg h => by simp [targets_eq_none_of_not_mem h], fun _ => rfl⟩

/-- Settles O25: the blocks share no address, so only the block that has this one can answer. -/
theorem accessReachesTheBlockOfItsAddress : Obligations.AccessReachesTheBlockOfItsAddress := by
  intro s j b addr v d hvalid hj haddr i hi
  obtain ⟨p, k, hp, hexec⟩ := exec_eq_atBlock hi
  have hplace : s.blocks[j + 1]? = some b := hj
  have hhand : p s.cfg = false := hp _ fun h => by
    simpa using place_eq_of_common_address hvalid (k := 0) hplace rfl haddr h
  have hrest : ∀ n c, s.others[n]? = some c → n ≠ j → p c.cfg = false := fun n c hn hne => hp _ fun h =>
    hne (by simpa using (place_eq_of_common_address hvalid (k := n + 1) hplace hn haddr h).symm)
  rw [hexec, hexec]
  cases hfree : s.hostFree with
  | false =>
    rw [whenHostFree_of_busy hfree, whenHostFree_of_busy ((hostFree_congr (s.swap_session j)).trans hfree),
      onNext_refused]
  | true =>
    rw [whenHostFree_of_free hfree, whenHostFree_of_free ((hostFree_congr (s.swap_session j)).trans hfree),
      atBlock_swap hj hhand hrest]

/-! #### Another beat size -/

theorem withBeatOf8_of_ne {a : Answer} (h : s.cfg.bytesPerBeat ≠ 8) : s.withBeatOf8 a = .refused .badBytesPerBeat :=
  if_neg h

/-- Settles O22: the serializer, the deserializer and the session stand behind the guard of R141. -/
theorem otherBeatSizesRefused : Obligations.OtherBeatSizesRefused := by
  intro s payload beats b h hsize
  refine ⟨withBeatOf8_of_ne hsize, withBeatOf8_of_ne hsize, withBeatOf8_of_ne hsize, withBeatOf8_of_ne hsize,
    fun hfree => ?_⟩
  rw [exec, execSessionRun, whenHostFree_of_free hfree, withBeatOf8_of_ne hsize]

/-! #### The pipeline while it does not run -/

section Waiting

variable (m : Config.PipelineMove) (hidle : b.processing = false)
include hidle

/-- Outside a run a move leaves the queues and `ENABLE` as they are (R221). -/
theorem applyMove_of_idle :
    (b.applyMove m).wq = b.wq ∧ (b.applyMove m).rq = b.rq ∧ (b.applyMove m).enable = b.enable := by
  unfold Block.applyMove
  rw [if_neg (by simp [hidle])]
  split
  · exact ⟨rfl, rfl, rfl⟩
  split <;> exact ⟨rfl, rfl, rfl⟩

/-- Before a first transfer is completed it leaves the poll register too, whichever that is (R38). -/
theorem applyMove_of_unanswered (hnone : b.answered = false) :
    (b.cfg.pollAt = .rcount → (b.applyMove m).rcount = b.rcount) ∧
      (b.cfg.pollAt = .hdrOut0 → (b.applyMove m).hdrOut.beatCount = b.hdrOut.beatCount) := by
  unfold Block.applyMove
  rw [if_neg (by simp [hidle]), if_neg (by simp [hnone])]
  exact ⟨fun hpoll => by simp only [hpoll], fun hpoll => by simp only [hpoll]⟩

end Waiting

/-- Settles O53: on hardware a turn is a move of the pipeline, here of one that does not run. -/
theorem pipelineWaitsForStart : Obligations.PipelineWaitsForStart := by
  refine ⟨pipelineTurn_blocks, fun b hidle hw => ?_⟩
  obtain ⟨m, hm⟩ | ⟨hmock, -⟩ | ⟨hmock, -⟩ := turn_cases b
  · obtain ⟨hwq, hrq, henable⟩ := applyMove_of_idle m hidle
    rw [hm]
    exact ⟨hwq, hrq, henable, fun hnone => (applyMove_of_unanswered m hidle hnone).1,
      fun hnone => (applyMove_of_unanswered m hidle hnone).2⟩
  all_goals simp [hw] at hmock

end Sys2Proof.Machine

/-!
### The proofs of the family "reset_and_hazards"

What the host may not do while a transfer is under way, and how long a session without a poll limit polls
(spec/70_reset_and_hazards.md R233, R234, R244).
-/

namespace Sys2Proof.Machine

variable {s t : State} {σ : Session}

/-! #### Writes during a transfer -/

section Busy

variable (hbusy : s.inTransfer = true)
include hbusy

theorem beforeStart_of_busy {a : Answer} : s.beforeStart a = .refused .outOfOrder := by
  simp [State.beforeStart, hbusy]

/-- Whichever register a write means, it stands behind the guard of the start; at `ENABLE` only the value 1 gets as far
as the guard (R176). -/
theorem regWrite_of_busy {w : Config.Width} {addr : Nat} {v : Word64} {r : WriteTarget}
    (hr : writeTarget s.cfg w addr = some r) (hv : r = .enable → v = 1) :
    s.regWrite w addr v = .refused .outOfOrder := by
  rw [State.regWrite, hr]
  cases r with
  | hdrIn f => exact beforeStart_of_busy hbusy
  | writeQueue => exact beforeStart_of_busy hbusy
  | enable => exact (if_pos (hv rfl)).trans (beforeStart_of_busy hbusy)

variable (hfree : s.hostFree = true)
include hfree

theorem exec_regWr32_of_busy {addr : Nat} {v : Word32} {r : WriteTarget}
    (hr : writeTarget s.cfg .w32 addr = some r) (hv : r = .enable → v = 1) :
    exec (.regWr32 addr v) s = .refused .outOfOrder := by
  have hv64 : r = .enable → v.setWidth 64 = 1 := fun h => by rw [hv h]; rfl
  rw [exec, execRegWr32, whenHostFree_of_free hfree, atBlock_of_target hr, regWrite_of_busy hbusy hr hv64,
    onNext_refused]

theorem exec_regWr64_of_busy {addr : Nat} {v : Word64} {r : WriteTarget}
    (hr : writeTarget s.cfg .w64 addr = some r) (hv : r = .enable → v = 1) :
    exec (.regWr64 addr v) s = .refused .outOfOrder := by
  rw [exec, execRegWr64, whenHostFree_of_free hfree, atBlock_of_target hr, regWrite_of_busy hbusy hr hv, onNext_refused]

end Busy

/-- A write of `CTRL_WIDTH` bits at `ENABLE_ADDR` means some register in every configuration, also in one that gives
the address to another register too, which R62 forbids. -/
theorem exists_writeTarget_enableAddr (cfg : Config.Params) :
    ∃ r, writeTarget cfg cfg.ctrlWidth cfg.enableAddr = some r := by
  unfold writeTarget
  split
  · exact ⟨_, rfl⟩
  · next hw _ => exact ⟨.enable, if_pos ⟨rfl, hw⟩⟩
  · next hw =>
    split
    · exact ⟨_, rfl⟩
    · exact ⟨.enable, if_pos ⟨rfl, hw⟩⟩

/-- Settles O34: an operation and the register write that does the same both stand behind the guard of the start. -/
theorem transferUnderWayRefusesWrites : Obligations.TransferUnderWayRefusesWrites := by
  intro s h b v f hfree hbusy
  obtain ⟨r, hr⟩ := exists_writeTarget_enableAddr s.cfg
  have hpush : exec (.wqPush b) s = .refused .outOfOrder := by
    rw [exec, execWqPush, whenHostFree_of_free hfree, State.pushWq, beforeStart_of_busy hbusy, onNext_refused]
  refine ⟨?_, hpush, ?_, exec_regWr32_of_busy hbusy hfree (writeTarget_inOffset s.cfg f) nofun,
    (exec_regWr64_wqAddr s b).trans hpush, fun hw => exec_regWr32_of_busy hbusy hfree (hw ▸ hr) fun _ => rfl,
    fun hw => exec_regWr64_of_busy hbusy hfree (hw ▸ hr) fun _ => rfl⟩
  · rw [exec, execHdrWrite, whenHostFree_of_free hfree, beforeStart_of_busy hbusy]
  · rw [exec, execEnStart, whenHostFree_of_free hfree, State.start, beforeStart_of_busy hbusy, onNext_refused]

/-! #### A poll without a limit -/

/-- The session polls on the block at hand, without a limit, and has read only zeros so far (R194). -/
structure Session.PollsUnbounded (σ : Session) (s : State) : Prop where
  session : s.session = some σ
  running : σ.ended = false
  polling : σ.state = .polling
  unanswered : σ.count = 0
  block : σ.block = s.cfg.hdrBase
  unlimited : s.cfg.pollLimit = none

namespace Session.PollsUnbounded

/-- A zero is read, and the session polls on (R234). -/
theorem step_zero (h : σ.PollsUnbounded s) (hn : s.pipelineTurn.pollValue = 0) :
    ∃ t, step s = .next t ∧ { σ with polls := σ.polls + 1 }.PollsUnbounded t ∧ t.result = s.result ∧
      t.calls = s.calls := by
  have hlimit : s.pipelineTurn.pollLimitReached (σ.polls + 1) = false := by
    simp [State.pollLimitReached, h.unlimited]
  refine ⟨_, (step_of_session_here h.session h.running h.block).trans
    (sessionStep_zero h.polling h.unanswered hn hlimit), ?_, rfl, rfl⟩
  exact { h with session := rfl, block := by simpa using h.block, unlimited := by simpa using h.unlimited }

/-- A non-zero count is read, and kept in the session (R194). -/
theorem step_counted (h : σ.PollsUnbounded s) (hn : s.pipelineTurn.pollValue ≠ 0) :
    ∃ t σ', step s = .next t ∧ t.session = some σ' ∧ σ'.state = .polling ∧ σ'.count ≠ 0 :=
  ⟨_, _, (step_of_session_here h.session h.running h.block).trans (sessionStep_counted h.polling h.unanswered hn), rfl,
    h.polling, hn⟩

/-- As long as every poll reads 0 the session polls on. -/
theorem run_zeros (h : σ.PollsUnbounded s) (k : Nat)
    (hzero : ∀ j t, j < k → Host.Core.run core j s = .next t → t.pipelineTurn.pollValue = 0) :
    ∃ t, Host.Core.run core k s = .next t ∧ { σ with polls := σ.polls + k }.PollsUnbounded t ∧
      t.result = s.result ∧ t.calls = s.calls := by
  induction k with
  | zero => exact ⟨s, rfl, h, rfl, rfl⟩
  | succ k ih =>
    obtain ⟨t, hrun, hpolls, hresult, hcalls⟩ := ih fun j t hj => hzero j t (by omega)
    obtain ⟨u, hstep, hnext, hresult', hcalls'⟩ := hpolls.step_zero (hzero k t (by omega) hrun)
    have hone : Host.Core.run core 1 t = .next u := run_succ_of_next hstep
    exact ⟨u, (run_add_of_next hrun 1).trans hone, hnext, hresult'.trans hresult, hcalls'.trans hcalls⟩

end Session.PollsUnbounded

/-- What every step keeps, every run keeps. -/
theorem run_keeps {M : Host.Core} {P : M.State → Prop} (hkeep : ∀ x y, P x → M.step x = .next y → P y) {k : Nat}
    {x y : M.State} (hx : P x) (h : M.run k x = .next y) : P y := by
  induction k generalizing x with
  | zero =>
    cases h
    exact hx
  | succ k ih =>
    rw [Host.Core.run] at h
    split at h
    · next z hstep => exact ih (hkeep x z hx hstep) h
    · cases h
    · cases h

/-- No run writes the configuration of the block at hand (R23). -/
theorem run_cfg {k : Nat} (h : Host.Core.run core k s = .next t) : t.cfg = s.cfg :=
  run_keeps (M := core) (P := fun u : State => u.cfg = s.cfg)
    (fun u v hu hstep => (List.cons.inj (stepKeepsConfiguration u v hstep)).1.trans hu) rfl h

/-- Settles O43: a session that polls without a limit polls on, and the mock of P5 is P5's all along the run. -/
theorem silentPipelineHangsSession : Obligations.SilentPipelineHangsSession := by
  intro k s σ hlimit hσ hrun hpoll hcount hblock
  refine ⟨fun hzero => ?_, fun hw j (t : State) hj => pollValue_of_silent (by simpa [run_cfg hj] using hw)⟩
  have h : σ.PollsUnbounded s := ⟨hσ, hrun, hpoll, hcount, hblock, hlimit⟩
  obtain ⟨t, ht, hpolls, hresult, hcalls⟩ := h.run_zeros k hzero
  exact ⟨t, ht, hpolls.session, hresult, hcalls⟩

/-- After `k` steps the host's next access finds the poll register non-zero. -/
def AnsweredAfter (s : State) (k : Nat) : Prop :=
  ∃ t, Host.Core.run core k s = .next t ∧ t.pipelineTurn.pollValue ≠ 0

/-- Settles O44: until the first time the poll register is not 0 the session polls on, and then it reads that value. -/
theorem completingPipelineEndsThePoll : Obligations.CompletingPipelineEndsThePoll := by
  classical
  intro s σ hσ hrun hpoll hcount hblock hlimit ⟨n, u, hu, _, hanswer⟩
  have h : σ.PollsUnbounded s := ⟨hσ, hrun, hpoll, hcount, hblock, hlimit⟩
  have hsome : ∃ k, AnsweredAfter s k := ⟨n, u, hu, hanswer⟩
  obtain ⟨t, ht, hn⟩ := Nat.find_spec hsome
  obtain ⟨t', ht', hpolls, -, -⟩ := h.run_zeros (Nat.find hsome) fun j t hj ht =>
    by_contra fun hne => Nat.find_min hsome hj ⟨t, ht, hne⟩
  obtain rfl : t' = t := Answer.next_inj (ht.symm.trans ht')
  obtain ⟨v, τ, hstep, hcounted⟩ := hpolls.step_counted hn
  have hone : Host.Core.run core 1 t' = .next v := run_succ_of_next hstep
  exact ⟨Nat.find hsome + 1, v, τ, (run_add_of_next ht 1).trans hone, hcounted⟩

end Sys2Proof.Machine
